-- ==== Sys2Proof/Word.lean ====
section
/-! DEFINITION. The plain types of TLR-CORE: bytes, bus words, 16-byte blocks and key schedules
(spec/00_scope.md rules R9, R12, R13). -/

namespace Sys2Proof

/-- One byte, also an element of GF(2^8), bit i being the coefficient of x^i (R12, R15). -/
abbrev Byte := BitVec 8

/-- One 32-bit bus word or register (R9, R20). -/
abbrev Word := BitVec 32

/-- A byte offset in the 4 KiB register window, PADDR[11:0] (R47). -/
abbrev Offset := BitVec 12

/-- The byte strobes PSTRB[3:0] (R47): bit m is for byte lane m. -/
abbrev Strobe := BitVec 4

/-- A sequence of 16 bytes, byte 0 first: a cipher block, a key, a tag or a round key (R9, R13). -/
abbrev Block := Vector Byte 16

/-- The 11 round keys of one key, RK_0 first (R9, R86). -/
abbrev Schedule := Vector Block 11

/-- The block of sixteen zero bytes, `zeros(16)` (R13). -/
def zeroBlock : Block := Vector.replicate 16 0

end Sys2Proof
end

