-- ==== Sys2Proof/Syntax.lean ====
section
/-! DEFINITION. The commands of TLR-CORE (its instructions): one constructor per row of
spec/opcode_table.json, and the five raw fields of a command word (spec/30_encoding.md R60 to R63). -/

namespace Sys2Proof

/-- A key slot, the meaning of KSEL (R60, R61): slot 0 is the confidentiality key, slot 1 the
integrity key (R36). -/
inductive Slot where
  | slot0
  | slot1
deriving DecidableEq, Repr

/-- The commands (R62, R63). The command word carries no operand but KSEL and DIR (R61). -/
inductive Instr where
  /-- `NOP`, OP 0x00 (R112). -/
  | nop
  /-- `KEYEXP k`, OP 0x01 (R90). -/
  | keyexp (k : Slot)
  /-- `ENCBLK k`, OP 0x02 (R91). -/
  | encblk (k : Slot)
  /-- `CMAC k`, OP 0x03 (R98). -/
  | cmac (k : Slot)
  /-- `CTR k, dir=d`, OP 0x04 (R103). -/
  | ctr (k : Slot) (dir : Byte)
  /-- `BUILD`, OP 0x05 (R108). -/
  | build
  /-- `FCNT_INC`, OP 0x06 (R113). -/
  | fcntInc
deriving DecidableEq, Repr

/-- Why a word is no command, whatever the state (R64). -/
inductive DecodeError where
  /-- OP is 0x07 to 0xFF (R64 (a)). -/
  | illegalOp
  /-- OP is legal and a reserved or unused field is not 0 (R64 (b)). -/
  | reservedField
deriving DecidableEq, Repr

/-- The five fields of the one command format (R60). -/
structure CommandFields where
  /-- bits 7:0 -/
  op : Byte
  /-- bit 8 -/
  ksel : Bool
  /-- bits 15:9, must be 0 -/
  reservedLow : BitVec 7
  /-- bits 23:16 -/
  dir : Byte
  /-- bits 31:24, must be 0 -/
  reservedHigh : Byte
deriving DecidableEq, Repr

/-- KSEL as a bit: 0 for slot 0, 1 for slot 1 (R60). -/
def Slot.ksel : Slot → Bool
  | .slot0 => false
  | .slot1 => true

/-- The fields a command is written with (R62, R63): every field it does not use is 0. -/
def Instr.fields : Instr → CommandFields
  | .nop => ⟨0x00, false, 0, 0, 0⟩
  | .keyexp k => ⟨0x01, k.ksel, 0, 0, 0⟩
  | .encblk k => ⟨0x02, k.ksel, 0, 0, 0⟩
  | .cmac k => ⟨0x03, k.ksel, 0, 0, 0⟩
  | .ctr k d => ⟨0x04, k.ksel, 0, d, 0⟩
  | .build => ⟨0x05, false, 0, 0, 0⟩
  | .fcntInc => ⟨0x06, false, 0, 0, 0⟩

end Sys2Proof
end

