-- ==== Sys2Proof/WellFormed.lean ====
section
/-! DEFINITION. Which command fields are well formed: the checks of spec/30_encoding.md R63 and R64,
one definition each, over the raw fields of a command word. -/

namespace Sys2Proof

/-- OP is one of the seven opcodes (R62, R64 (a)). -/
def CommandFields.opLegal (f : CommandFields) : Bool := decide (f.op.toNat ≤ 0x06)

/-- Bits 15:9 are 0 (R60). -/
def CommandFields.reservedLowClear (f : CommandFields) : Bool := decide (f.reservedLow = 0)

/-- Bits 31:24 are 0 (R60). -/
def CommandFields.reservedHighClear (f : CommandFields) : Bool := decide (f.reservedHigh = 0)

/-- KSEL is 0 unless the opcode is KEYEXP, ENCBLK, CMAC or CTR (R63). -/
def CommandFields.kselAllowed (f : CommandFields) : Bool :=
  !f.ksel || decide (f.op ∈ ([0x01, 0x02, 0x03, 0x04] : List Byte))

/-- DIR is 0 unless the opcode is CTR (R63). -/
def CommandFields.dirAllowed (f : CommandFields) : Bool :=
  decide (f.dir = 0) || decide (f.op = 0x04)

/-- All the checks of R63 and R64. -/
def CommandFields.wellFormed (f : CommandFields) : Bool :=
  f.opLegal && f.reservedLowClear && f.reservedHighClear && f.kselAllowed && f.dirAllowed

/-- A command is well formed when the fields it is written with are. KSEL and DIR are typed as a slot
and a byte, so no command of `Instr` can carry a value its encoding does not admit. -/
def Instr.wellFormed (i : Instr) : Bool := i.fields.wellFormed

end Sys2Proof
end

