-- ==== Sys2Proof/Decode.lean ====
section
/-! DEFINITION. The command decoder and encoder (spec/30_encoding.md R60 to R65, R73). -/

namespace Sys2Proof

/-- The slot that KSEL names (R61). -/
def slotOfKsel (ksel : Bool) : Slot := if ksel then .slot1 else .slot0

/-- The five fields of a command word (R60). -/
def fieldsOfWord (w : Word) : CommandFields where
  op := w.extractLsb' 0 8
  ksel := w.getLsbD 8
  reservedLow := w.extractLsb' 9 7
  dir := w.extractLsb' 16 8
  reservedHigh := w.extractLsb' 24 8

/-- The command word that holds five fields (R60). -/
def wordOfFields (f : CommandFields) : Word :=
  f.reservedHigh ++ f.dir ++ f.reservedLow ++ BitVec.ofBool f.ksel ++ f.op

/-- The command of a legal opcode, its slot and its direction byte (R62). -/
def commandOfOp (op : Byte) (k : Slot) (d : Byte) : Instr :=
  match op.toNat with
  | 0 => .nop
  | 1 => .keyexp k
  | 2 => .encblk k
  | 3 => .cmac k
  | 4 => .ctr k d
  | 5 => .build
  | _ => .fcntInc

/-- The state-independent part of `decode(w)` (R65): the checks ILLEGAL_OP and RESERVED_FIELD, in
R65's order. The checks on LEN and on the schedules are `operandErrors` (Machine/Operands.lean). -/
def decode (w : Word) : Except DecodeError Instr :=
  let f := fieldsOfWord w
  if f.op.toNat > 0x06 then .error .illegalOp
  else if f.reservedLow ≠ 0 ∨ f.reservedHigh ≠ 0 then .error .reservedField
  else if ¬ (1 ≤ f.op.toNat ∧ f.op.toNat ≤ 4) ∧ f.ksel = true then .error .reservedField
  else if f.op.toNat ≠ 4 ∧ f.dir ≠ 0 then .error .reservedField
  else .ok (commandOfOp f.op (slotOfKsel f.ksel) f.dir)

/-- The word of a command (R63, R73). -/
def encode (i : Instr) : Word := wordOfFields i.fields

/-- The decoder as the host asks for it: `w` numbered as the opcode table numbers bits, the bits at
`nbits` and above 0. A command is one 32-bit word (R71), bit 0 the least significant bit written to
CMD (R60). -/
def decodeTableWord (nbits w : Nat) : Option Instr :=
  match decode (BitVec.ofNat 32 (w % 2 ^ nbits)) with
  | .ok i => some i
  | .error _ => none

/-- One row of the table of R63: a word is the row's command when it agrees with `bits` on `mask`. -/
structure TableRow where
  bits : Word
  mask : Word
deriving DecidableEq, Repr

/-- The match and mask of the seven commands, NOP first (R63). -/
def commandTable : List TableRow :=
  [⟨0x00000000, 0xFFFFFFFF⟩, ⟨0x00000001, 0xFFFFFEFF⟩, ⟨0x00000002, 0xFFFFFEFF⟩,
   ⟨0x00000003, 0xFFFFFEFF⟩, ⟨0x00000004, 0xFF00FEFF⟩, ⟨0x00000005, 0xFFFFFFFF⟩,
   ⟨0x00000006, 0xFFFFFFFF⟩]

/-- The word matches the row (R63). -/
def TableRow.covers (r : TableRow) (w : Word) : Bool := decide (w &&& r.mask = r.bits)

end Sys2Proof
end

