-- ==== Sys2Proof/Config.lean ====
section
/-! DEFINITION. What the spec leaves open: constants without a body, so that no proof can see their
values (spec/00_scope.md R10; spec/93_implementation_defined.md U1, U2, U3). -/

namespace Sys2Proof

/-- `P_DATA_INIT`: byte n of DATA after the reset number `epoch`, any value (R10, R40, U1).
Log entry 1. -/
opaque Config.dataInit (epoch n : Nat) : Byte

/-- `P_OUT_INIT`: byte n of OUT after the reset number `epoch`, any value (R10, R41, U2).
Log entry 1. -/
opaque Config.outInit (epoch n : Nat) : Byte

/-- The value that draw number `n` of an unspecified read returns, any 32-bit value, drawn
independently per read (R45, U3). Log entry 2. -/
opaque Config.busDraw (n : Nat) : Word

end Sys2Proof
end

