-- ==== Sys2Proof/Machine/Bytes.lean ====
section
/-! DEFINITION. Byte lanes and byte sequences: the little-endian views of words and blocks
(spec/00_scope.md R13; spec/20_memory.md R46, R48). -/

namespace Sys2Proof.Machine

/-- Byte lane m of a word, bits 8m+7:8m (R48). -/
def lane (w : Word) (m : Nat) : Byte := w.extractLsb' (8 * m) 8

/-- The word whose byte lanes are the four bytes, lane 0 first (R48). -/
def wordOfLanes (b0 b1 b2 b3 : Byte) : Word := b3 ++ b2 ++ b1 ++ b0

/-- `new` in the strobed byte lanes, `old` in the others (R46). -/
def mergeLanes (old new : Word) (strb : Strobe) : Word :=
  let pick (m : Nat) : Byte := if strb.getLsbD m then lane new m else lane old m
  wordOfLanes (pick 0) (pick 1) (pick 2) (pick 3)

/-- The word a CMD write presents: every byte lane whose strobe is 0 replaced by 0x00 (R28, R46). -/
def commandWord (v : Word) (strb : Strobe) : Word := mergeLanes 0 v strb

/-- `le16(v)` (R13). -/
def le16 (v : BitVec 16) : List Byte := [v.extractLsb' 0 8, v.extractLsb' 8 8]

/-- `le32(v)`, the lanes 0 to 3 (R13, R48). -/
def le32 (v : Word) : List Byte := [lane v 0, lane v 1, lane v 2, lane v 3]

/-- Word j of a block: byte 4j+m in lane m (R36, R38, R39, R48). -/
def blockWord (b : Block) (j : Fin 4) : Word :=
  wordOfLanes (b[4 * j.val]) (b[4 * j.val + 1]) (b[4 * j.val + 2]) (b[4 * j.val + 3])

/-- The block with the strobed byte lanes of its word j replaced (R37, R46). -/
def blockWithWord (b : Block) (j : Fin 4) (v : Word) (strb : Strobe) : Block :=
  Vector.ofFn fun i : Fin 16 =>
    if i.val / 4 = j.val ∧ strb.getLsbD (i.val % 4) = true then lane v (i.val % 4) else b[i]

/-- `a XOR b` of two blocks (R13). -/
def xorBlock (a b : Block) : Block := Vector.ofFn fun i : Fin 16 => a[i] ^^^ b[i]

/-- `a XOR b` of two byte sequences, as long as the shorter of the two (R13, R101). -/
def xorBytes (a b : List Byte) : List Byte := List.zipWith (· ^^^ ·) a b

/-- The block that begins with the given bytes; any byte past their end is 0x00 (R95's zero bytes). -/
def blockOfBytes (bs : List Byte) : Block := Vector.ofFn fun i : Fin 16 => bs.getD i.val 0

end Sys2Proof.Machine
end

