-- ==== Sys2Proof/Machine/Aes.lean ====
section
/-! DEFINITION. The AES-128 core: field arithmetic, round transformations, key schedule and cipher
(spec/40_aes.md R75 to R89). A state is the 16-byte sequence of R75, byte r + 4c being row r, column c. -/

namespace Sys2Proof.Machine

/-- Multiplication by {02} (R76). -/
def xtime (b : Byte) : Byte := (b <<< 1) ^^^ (if b.getLsbD 7 then 0x1B else 0x00)

/-- Multiplication by {03} (R76). -/
def times3 (b : Byte) : Byte := xtime b ^^^ b

/-- `a • b`, polynomial multiplication modulo x^8 + x^4 + x^3 + x + 1 (R76): the sum of x^i • b over
the bits i of `a`. -/
def gfMul (a b : Byte) : Byte :=
  (List.range 8).foldl (fun acc i => acc ^^^ (if a.getLsbD i then Nat.repeat xtime i b else 0)) 0

/-- The multiplicative inverse, with 0 for 0 (R76), as the power b^254: the nonzero elements form a
group of order 255. -/
def gfInv (b : Byte) : Byte :=
  let b2 := gfMul b b
  let b4 := gfMul b2 b2
  let b8 := gfMul b4 b4
  let b16 := gfMul b8 b8
  let b32 := gfMul b16 b16
  let b64 := gfMul b32 b32
  let b128 := gfMul b64 b64
  gfMul b2 (gfMul b4 (gfMul b8 (gfMul b16 (gfMul b32 (gfMul b64 b128)))))

/-- The affine map A of the substitution box (R77). -/
def affine (b : Byte) : Byte :=
  b ^^^ b.rotateRight 4 ^^^ b.rotateRight 5 ^^^ b.rotateRight 6 ^^^ b.rotateRight 7 ^^^ 0x63

/-- The rows of the substitution table, row hi = 0 first, column lo = 0 first (R78). -/
def sboxRows : List (List Byte) :=
  [[0x63, 0x7c, 0x77, 0x7b, 0xf2, 0x6b, 0x6f, 0xc5, 0x30, 0x01, 0x67, 0x2b, 0xfe, 0xd7, 0xab, 0x76],
   [0xca, 0x82, 0xc9, 0x7d, 0xfa, 0x59, 0x47, 0xf0, 0xad, 0xd4, 0xa2, 0xaf, 0x9c, 0xa4, 0x72, 0xc0],
   [0xb7, 0xfd, 0x93, 0x26, 0x36, 0x3f, 0xf7, 0xcc, 0x34, 0xa5, 0xe5, 0xf1, 0x71, 0xd8, 0x31, 0x15],
   [0x04, 0xc7, 0x23, 0xc3, 0x18, 0x96, 0x05, 0x9a, 0x07, 0x12, 0x80, 0xe2, 0xeb, 0x27, 0xb2, 0x75],
   [0x09, 0x83, 0x2c, 0x1a, 0x1b, 0x6e, 0x5a, 0xa0, 0x52, 0x3b, 0xd6, 0xb3, 0x29, 0xe3, 0x2f, 0x84],
   [0x53, 0xd1, 0x00, 0xed, 0x20, 0xfc, 0xb1, 0x5b, 0x6a, 0xcb, 0xbe, 0x39, 0x4a, 0x4c, 0x58, 0xcf],
   [0xd0, 0xef, 0xaa, 0xfb, 0x43, 0x4d, 0x33, 0x85, 0x45, 0xf9, 0x02, 0x7f, 0x50, 0x3c, 0x9f, 0xa8],
   [0x51, 0xa3, 0x40, 0x8f, 0x92, 0x9d, 0x38, 0xf5, 0xbc, 0xb6, 0xda, 0x21, 0x10, 0xff, 0xf3, 0xd2],
   [0xcd, 0x0c, 0x13, 0xec, 0x5f, 0x97, 0x44, 0x17, 0xc4, 0xa7, 0x7e, 0x3d, 0x64, 0x5d, 0x19, 0x73],
   [0x60, 0x81, 0x4f, 0xdc, 0x22, 0x2a, 0x90, 0x88, 0x46, 0xee, 0xb8, 0x14, 0xde, 0x5e, 0x0b, 0xdb],
   [0xe0, 0x32, 0x3a, 0x0a, 0x49, 0x06, 0x24, 0x5c, 0xc2, 0xd3, 0xac, 0x62, 0x91, 0x95, 0xe4, 0x79],
   [0xe7, 0xc8, 0x37, 0x6d, 0x8d, 0xd5, 0x4e, 0xa9, 0x6c, 0x56, 0xf4, 0xea, 0x65, 0x7a, 0xae, 0x08],
   [0xba, 0x78, 0x25, 0x2e, 0x1c, 0xa6, 0xb4, 0xc6, 0xe8, 0xdd, 0x74, 0x1f, 0x4b, 0xbd, 0x8b, 0x8a],
   [0x70, 0x3e, 0xb5, 0x66, 0x48, 0x03, 0xf6, 0x0e, 0x61, 0x35, 0x57, 0xb9, 0x86, 0xc1, 0x1d, 0x9e],
   [0xe1, 0xf8, 0x98, 0x11, 0x69, 0xd9, 0x8e, 0x94, 0x9b, 0x1e, 0x87, 0xe9, 0xce, 0x55, 0x28, 0xdf],
   [0x8c, 0xa1, 0x89, 0x0d, 0xbf, 0xe6, 0x42, 0x68, 0x41, 0x99, 0x2d, 0x0f, 0xb0, 0x54, 0xbb, 0x16]]

/-- The substitution box: for x = 16*hi + lo, the entry at row hi, column lo (R78). -/
def sbox (x : Byte) : Byte := (sboxRows.getD (x.toNat / 16) []).getD (x.toNat % 16) 0

/-- SubBytes (R79). -/
def subBytes (s : Block) : Block := s.map sbox

/-- ShiftRows (R80): byte r + 4c of the result is byte r + 4((c + r) mod 4). -/
def shiftRows (s : Block) : Block :=
  Vector.ofFn fun i : Fin 16 => s[i.val % 4 + 4 * ((i.val / 4 + i.val % 4) % 4)]

/-- Row r of the new column (R81): the coefficients {02}, {03}, {01}, {01} starting at row r. -/
def mixByte (r : Nat) (a0 a1 a2 a3 : Byte) : Byte :=
  match r with
  | 0 => xtime a0 ^^^ times3 a1 ^^^ a2 ^^^ a3
  | 1 => a0 ^^^ xtime a1 ^^^ times3 a2 ^^^ a3
  | 2 => a0 ^^^ a1 ^^^ xtime a2 ^^^ times3 a3
  | _ => times3 a0 ^^^ a1 ^^^ a2 ^^^ xtime a3

/-- MixColumns (R81): column c is the bytes 4c to 4c+3. -/
def mixColumns (s : Block) : Block :=
  Vector.ofFn fun i : Fin 16 =>
    mixByte (i.val % 4) (s[4 * (i.val / 4)]) (s[4 * (i.val / 4) + 1]) (s[4 * (i.val / 4) + 2])
      (s[4 * (i.val / 4) + 3])

/-- AddRoundKey (R82). -/
def addRoundKey (s rk : Block) : Block := xorBlock s rk

/-- Rcon[j], j = 1 .. 10 (R83). -/
def rcon (j : Nat) : Byte :=
  ([0x00, 0x01, 0x02, 0x04, 0x08, 0x10, 0x20, 0x40, 0x80, 0x1b, 0x36] : List Byte).getD j 0

/-- A 4-byte word of the key schedule, [a0, a1, a2, a3] (R84). -/
abbrev KeyWord := Vector Byte 4

/-- RotWord (R84). -/
def rotWord (t : KeyWord) : KeyWord := #v[t[1], t[2], t[3], t[0]]

/-- SubWord (R84). -/
def subWord (t : KeyWord) : KeyWord := t.map sbox

/-- The bytewise exclusive-or of two key words (R85). -/
def xorKeyWord (a b : KeyWord) : KeyWord :=
  #v[a[0] ^^^ b[0], a[1] ^^^ b[1], a[2] ^^^ b[2], a[3] ^^^ b[3]]

/-- The word `t` that R85 adds to w[i-4] to make w[i], from w[i-1]. -/
def keyTemp (i : Nat) (previous : KeyWord) : KeyWord :=
  if i % 4 = 0 then xorKeyWord (subWord (rotWord previous)) #v[rcon (i / 4), 0, 0, 0] else previous

/-- Word i of the key, K[4i .. 4i+4) (R85). -/
def keyWordOfKey (key : Block) (i : Fin 4) : KeyWord :=
  #v[key[4 * i.val], key[4 * i.val + 1], key[4 * i.val + 2], key[4 * i.val + 3]]

/-- The four words w[i], w[i+1], w[i+2], w[i+3] of one round key. -/
abbrev RoundWords := Vector KeyWord 4

/-- The next four words of R85 from the four before, for the words 4r .. 4r+3. -/
def nextRoundWords (r : Nat) (w : RoundWords) : RoundWords :=
  let w0 := xorKeyWord w[0] (keyTemp (4 * r) w[3])
  let w1 := xorKeyWord w[1] (keyTemp (4 * r + 1) w0)
  let w2 := xorKeyWord w[2] (keyTemp (4 * r + 2) w1)
  let w3 := xorKeyWord w[3] (keyTemp (4 * r + 3) w2)
  #v[w0, w1, w2, w3]

/-- The words w[4r .. 4r+4) of KeyExpansion (R85). -/
def roundWords (key : Block) : Nat → RoundWords
  | 0 => Vector.ofFn fun i : Fin 4 => keyWordOfKey key i
  | r + 1 => nextRoundWords (r + 1) (roundWords key r)

/-- Round key r, w[4r] || w[4r+1] || w[4r+2] || w[4r+3] (R86). -/
def blockOfWords (w : RoundWords) : Block :=
  Vector.ofFn fun i : Fin 16 => (w[i.val / 4])[i.val % 4]

/-- The schedule of a key, RK_0 .. RK_10 (R85, R86). -/
def keyExpansion (key : Block) : Schedule :=
  Vector.ofFn fun r : Fin 11 => blockOfWords (roundWords key r.val)

/-- One full round: SubBytes, ShiftRows, MixColumns, AddRoundKey (R87). -/
def fullRound (s rk : Block) : Block := addRoundKey (mixColumns (shiftRows (subBytes s))) rk

/-- The final round, without MixColumns (R87). -/
def finalRound (s rk : Block) : Block := addRoundKey (shiftRows (subBytes s)) rk

/-- `Cipher(RK_0..RK_10, in)` (R87): RK_0, nine full rounds with RK_1 .. RK_9, the final round. -/
def cipher (rks : Schedule) (input : Block) : Block :=
  let s0 := addRoundKey input rks[0]
  let s1 := fullRound s0 rks[1]
  let s2 := fullRound s1 rks[2]
  let s3 := fullRound s2 rks[3]
  let s4 := fullRound s3 rks[4]
  let s5 := fullRound s4 rks[5]
  let s6 := fullRound s5 rks[6]
  let s7 := fullRound s6 rks[7]
  let s8 := fullRound s7 rks[8]
  let s9 := fullRound s8 rks[9]
  finalRound s9 rks[10]

end Sys2Proof.Machine
end

