-- ==== Sys2Proof/Machine/State.lean ====
section
/-! DEFINITION. The state of TLR-CORE, its faults and refusals, and the state after reset
(spec/10_state.md, spec/70_reset_and_hazards.md R130 to R132). -/

namespace Sys2Proof.Machine

/-- Why the machine stops with a fault: never. The core has no traps and its bus never fails: PREADY is
1, PSLVERR is 0, reserved offsets read 0, and every error is a STATUS value (R46, R49, R119, R120). -/
inductive Fault where
deriving DecidableEq, Repr

/-- Why the model gives no meaning. -/
inductive Refusal where
  /-- Raised by an arm of `exec` whose command has no meaning yet: none has this arm now. Safe. -/
  | notModelled (mnemonic : String)
deriving DecidableEq, Repr

/-- The result codes of STATUS.ERRCODE that the core produces (R115). Codes 5 to 15 are never
produced (R115, U7), so they are no constructors. -/
inductive ErrCode where
  /-- 0, success. -/
  | ok
  /-- 1, ILLEGAL_OP. -/
  | illegalOp
  /-- 2, RESERVED_FIELD. -/
  | reservedField
  /-- 3, LENGTH. -/
  | length
  /-- 4, NO_SCHEDULE. -/
  | noSchedule
deriving DecidableEq, Repr

/-- One event outside or inside the core: a bus transaction of the host, the engine's turn, or a change
of PRESETn. The order of events is the schedule of a run (R17, R54, R69). -/
inductive Event where
  /-- A bus read at a byte offset of the window (R45). -/
  | read (addr : Offset)
  /-- A bus write of PWDATA with PSTRB at a byte offset of the window (R46). -/
  | write (addr : Offset) (data : Word) (strb : Strobe)
  /-- The engine's autonomous step, the completion of the command in flight (R69). -/
  | engine
  /-- PRESETn changes to the level given (R47, R130). -/
  | presetn (level : Bool)
deriving DecidableEq, Repr

/-- One key slot: its key (KEYk_0..3, R36), its schedule SCHED[k] (R42) and SCHEDk_VALID (R26). -/
structure KeySlot where
  key : Block
  sched : Schedule
  valid : Bool
deriving DecidableEq, Repr

/-- The bytes of the DATA and OUT buffers that something has written since the last reset, keyed by
their byte offset in the window (R40, R41, R52), addresses strictly rising. An unlisted address has no
value here: it reads as the unspecified byte it holds after reset. Log entry 1. -/
abbrev Memory := List Host.Cell

/-- The state of the core, and the model's own record of the events to come (`events`), of the value
last driven on PRDATA, and of how many unspecified values have been drawn. -/
structure State where
  /-- The events to come, first first: the model's own field (log entry 3). -/
  events : List Event
  /-- The level of PRESETn, true when high: the core runs (R47, R130). -/
  presetn : Bool
  /-- PRDATA, the value of the last bus read (R45, R47). -/
  prdata : Word
  /-- How many unspecified read values have been drawn: the model's own field (log entry 2). -/
  draws : Nat
  /-- How many resets there were before the present one: the model's own field (log entry 1). -/
  epoch : Nat
  /-- CTRL.KEYLOCK, of which STATUS.KEYLOCK is a copy (R24, R26). -/
  keylock : Bool
  /-- STATUS.DONE (R25). -/
  done : Bool
  /-- STATUS.ERRCODE; STATUS.ERR is derived from it (R25, R115). -/
  errcode : ErrCode
  /-- STATUS.FCNT_WRAP (R27). -/
  fcntWrap : Bool
  /-- STATUS.WIGN (R27). -/
  wign : Bool
  /-- The in-flight record, the accepted command while STATUS.BUSY = 1 (R44, R68): STATUS.BUSY is 1
  exactly when there is one (R25). -/
  inflight : Option Instr
  /-- LEN bits 8:0 (R29). -/
  len : BitVec 9
  /-- FRAME_LEN bits 8:0 (R31). -/
  frameLen : BitVec 9
  /-- DEVADDR (R32). -/
  devaddr : Word
  /-- FCNT bits 15:0, the frame counter (R30). -/
  fcnt : BitVec 16
  /-- CTR_FCNT (R33). -/
  ctrFcnt : Word
  /-- FHDR.MHDR, bits 7:0 (R34). -/
  mhdr : Byte
  /-- FHDR.FCTRL, bits 15:8 (R34). -/
  fctrl : Byte
  /-- MIC (R35). -/
  mic : Word
  /-- Key slot 0, the confidentiality key (R36). -/
  slot0 : KeySlot
  /-- Key slot 1, the integrity key (R36). -/
  slot1 : KeySlot
  /-- BLKIN0..3 as 16 bytes (R38). -/
  blkin : Block
  /-- BLKOUT0..3 as 16 bytes (R39). -/
  blkout : Block
  /-- The DATA and OUT buffers (R40, R41). -/
  mem : Memory
deriving DecidableEq, Repr

/-- A key slot after reset: the key bytes 0x00 and SCHEDk_VALID 0 (R131). The schedule is unspecified
and unusable while the valid bit is 0 (R42, U5); the model names zero bytes. Log entry 4. -/
def KeySlot.reset : KeySlot :=
  { key := zeroBlock, sched := Vector.replicate 11 zeroBlock, valid := false }

/-- The state after the release of PRESETn (R131, R132), with no event to come. -/
def State.reset : State :=
  { events := [], presetn := true, prdata := 0, draws := 0, epoch := 0,
    keylock := false, done := false, errcode := .ok, fcntWrap := false, wign := false,
    inflight := none, len := 0, frameLen := 0, devaddr := 0, fcnt := 0, ctrFcnt := 0,
    mhdr := 0x40, fctrl := 0x00, mic := 0, slot0 := KeySlot.reset, slot1 := KeySlot.reset,
    blkin := zeroBlock, blkout := zeroBlock, mem := [] }

end Sys2Proof.Machine
end

