-- ==== Sys2Proof/Machine/Memory.lean ====
section
/-! DEFINITION. The byte store of the DATA and OUT buffers and its one canonical form
(spec/10_state.md R40, R41; spec/20_memory.md R48, R52). -/

namespace Sys2Proof.Machine

/-- The byte listed at an address; none when nothing has written it since reset. -/
def Memory.read : Memory → Nat → Option Byte
  | [], _ => none
  | (a, b) :: rest, x => if x = a then some b else Memory.read rest x

/-- Write one byte, keeping the addresses strictly rising. -/
def Memory.write : Memory → Nat → Byte → Memory
  | [], x, v => [(x, v)]
  | (a, b) :: rest, x, v =>
    if x < a then (x, v) :: (a, b) :: rest
    else if x = a then (x, v) :: rest
    else (a, b) :: Memory.write rest x v

/-- Write the bytes at consecutive addresses from `x` on, first byte first. -/
def Memory.writeBytes : Memory → Nat → List Byte → Memory
  | m, _, [] => m
  | m, x, b :: bs => Memory.writeBytes (Memory.write m x b) (x + 1) bs

/-- The canonical form: the listed addresses are strictly rising. No listed entry can equal what an
unlisted address reads as, since that is no value. -/
def Memory.wf : Memory → Bool
  | [] => true
  | (a, _) :: rest => rest.all (fun c => decide (a < c.1)) && Memory.wf rest

/-- Every listed address lies in DATA or OUT, the offsets 0x100 to 0x2FF (R52). -/
def Memory.inBuffers (m : Memory) : Bool :=
  m.all fun c => decide (0x100 ≤ c.1) && decide (c.1 < 0x300)

end Sys2Proof.Machine
end

