-- ==== Sys2Proof/Machine/Operands.lean ====
section
/-! DEFINITION. The operands of the commands: key slots, buffer bytes, lengths, and the checks of a
command's operands at presentation (spec/10_state.md R29 to R42; spec/30_encoding.md R61, R63, R65). -/

namespace Sys2Proof.Machine

/-- Key slot k (R36, R61). -/
def State.slot (s : State) : Slot → KeySlot
  | .slot0 => s.slot0
  | .slot1 => s.slot1

/-- Replace key slot k; the other slot is untouched. -/
def State.setSlot (s : State) (k : Slot) (v : KeySlot) : State :=
  match k with
  | .slot0 => { s with slot0 := v }
  | .slot1 => { s with slot1 := v }

/-- STATUS.BUSY (R25). -/
def State.busy (s : State) : Bool := s.inflight.isSome

/-- The byte offset of DATA[0] (R40). -/
def dataBase : Nat := 0x100

/-- The byte offset of OUT[0] (R41). -/
def outBase : Nat := 0x200

/-- The byte a buffer address holds after reset number `epoch`, unspecified (R40, R41, U1, U2): what an
address that nothing has written reads as. Log entry 1. -/
def unwrittenByte (epoch addr : Nat) : Byte :=
  if addr < outBase then Config.dataInit epoch (addr - dataBase)
  else Config.outInit epoch (addr - outBase)

/-- The byte at a buffer's byte offset in the window (R40, R41). -/
def State.byteAt (s : State) (addr : Nat) : Byte :=
  match s.mem.read addr with
  | some b => b
  | none => unwrittenByte s.epoch addr

/-- DATA[n] (R40). -/
def State.dataByte (s : State) (n : Nat) : Byte := s.byteAt (dataBase + n)

/-- OUT[n] (R41). -/
def State.outByte (s : State) (n : Nat) : Byte := s.byteAt (outBase + n)

/-- DATA[0..n) (R40). -/
def State.dataBytes (s : State) (n : Nat) : List Byte := (List.range n).map s.dataByte

/-- LEN as a number of bytes (R29). -/
def State.length (s : State) : Nat := s.len.toNat

/-- The operand of CMAC, CTR and BUILD, DATA[0..LEN) (R98, R103, R108). -/
def State.payload (s : State) : List Byte := s.dataBytes s.length

/-- `Enc(k, b)`, the cipher under SCHED[k] (R88). -/
def State.enc (s : State) (k : Slot) (b : Block) : Block := cipher (s.slot k).sched b

/-- MAX_MSG, the largest LEN of CMAC and CTR (R9). -/
def maxMessage : Nat := 256

/-- MAX_PAYLOAD, the largest LEN of BUILD (R9). -/
def maxPayload : Nat := 242

/-- The LENGTH check (R65, R115). -/
def State.lengthError (s : State) (limit : Nat) : Option ErrCode :=
  if s.length > limit then some .length else none

/-- The NO_SCHEDULE check of one slot (R65, R115). -/
def State.scheduleError (s : State) (k : Slot) : Option ErrCode :=
  if (s.slot k).valid then none else some .noSchedule

/-- The checks of `decode(w)` that read the state, for a word that is a command: LENGTH before
NO_SCHEDULE, the first failing one reported (R65, R117). -/
def operandErrors (i : Instr) (s : State) : Option ErrCode :=
  match i with
  | .nop => none
  | .keyexp _ => none
  | .encblk k => s.scheduleError k
  | .cmac k => (s.lengthError maxMessage).or (s.scheduleError k)
  | .ctr k _ => (s.lengthError maxMessage).or (s.scheduleError k)
  | .build => (s.lengthError maxPayload).or ((s.scheduleError .slot0).or (s.scheduleError .slot1))
  | .fcntInc => none

end Sys2Proof.Machine
end

