-- ==== Sys2Proof/Machine/Flags.lean ====
section
/-! DEFINITION. STATUS: its word, and the clearing of its sticky bits (spec/10_state.md R25 to R27). -/

namespace Sys2Proof.Machine

/-- The number of a result code (R115). -/
def ErrCode.code : ErrCode → BitVec 4
  | .ok => 0
  | .illegalOp => 1
  | .reservedField => 2
  | .length => 3
  | .noSchedule => 4

/-- STATUS.ERR, always (ERRCODE != 0) (R25). The word 0x22 from which the example of R112 starts has ERR 0
beside ERRCODE 2: log entry 22. -/
def State.err (s : State) : Bool := s.errcode ≠ .ok

/-- The STATUS word, bit 31 first (R25, R26, R27). -/
def State.statusWord (s : State) : Word :=
  (0 : BitVec 18) ++ BitVec.ofBool s.wign ++ BitVec.ofBool s.fcntWrap ++ (0 : BitVec 1)
    ++ BitVec.ofBool s.keylock ++ BitVec.ofBool s.slot1.valid ++ BitVec.ofBool s.slot0.valid
    ++ s.errcode.code ++ (0 : BitVec 1) ++ BitVec.ofBool s.err ++ BitVec.ofBool s.done
    ++ BitVec.ofBool s.busy

/-- A write to STATUS: with byte lane 1 strobed, a 1 in bit 12 or 13 clears FCNT_WRAP or WIGN; a 0
leaves the bit (R27). -/
def State.clearSticky (s : State) (v : Word) (strb : Strobe) : State :=
  { s with fcntWrap := s.fcntWrap && !(strb.getLsbD 1 && v.getLsbD 12)
           wign := s.wign && !(strb.getLsbD 1 && v.getLsbD 13) }

/-- A write lost because the core is busy or the keys are locked sets WIGN and nothing else
(R37, R46, R118). -/
def State.lostWrite (s : State) : State := { s with wign := true }

end Sys2Proof.Machine
end

