-- ==== Sys2Proof/Machine/Ops.lean ====
section
/-! DEFINITION. The events of a command that all commands share: presentation, rejection, acceptance and
completion, and the writing of results (spec/30_encoding.md R65 to R69; spec/60_exceptions.md R116 to
R121). The core has no trap entry and no return from a trap (R120, R121): a rejection is its whole
error record. -/

namespace Sys2Proof.Machine

/-- Rejection with code c (R67, R120): DONE and ERRCODE, and nothing else. -/
def State.reject (s : State) (c : ErrCode) : State := { s with done := true, errcode := c }

/-- The code a word that is no command is rejected with (R64, R65). -/
def errCodeOf : DecodeError → ErrCode
  | .illegalOp => .illegalOp
  | .reservedField => .reservedField

/-- Acceptance of a command (R68): BUSY 1, DONE 0, ERRCODE 0, and the in-flight record. R121 and R25 have
ERRCODE keep the old code until completion: log entry 21. -/
def State.accept (s : State) (i : Instr) : State :=
  { s with inflight := some i, done := false, errcode := .ok }

/-- The end of a completion (R69): BUSY 0, DONE 1, ERRCODE 0. -/
def State.finish (s : State) : State :=
  { s with inflight := none, done := true, errcode := .ok }

/-- The event of the command `i` that the state calls for. Idle: `i` is presented, and rejected or
accepted (R66 to R68). `i` in flight: it completes, writing its results and then ending (R69). Another
command in flight: a presentation would be a write while busy, so it is lost and sets WIGN (R66). -/
def runCommand (i : Instr) (result : State → State) (s : State) :
    Host.Outcome State Fault Refusal :=
  match s.inflight with
  | none =>
    match operandErrors i s with
    | some c => .next (s.reject c)
    | none => .next (s.accept i)
  | some j => if j = i then .next (result s).finish else .next s.lostWrite

/-- Write a 16-byte result to BLKOUT (R39, R91, R98). -/
def State.setBlkout (s : State) (b : Block) : State := { s with blkout := b }

/-- Write OUT[0..len(bs)); every other byte keeps its value (R41). -/
def State.writeOut (s : State) (bs : List Byte) : State :=
  { s with mem := s.mem.writeBytes outBase bs }

end Sys2Proof.Machine
end

