-- ==== Sys2Proof/Machine/Cmac.lean ====
section
/-! DEFINITION. The CMAC engine, over any block encryption `enc`, and the command CMAC
(spec/41_cmac.md R92 to R98). -/

namespace Sys2Proof.Machine

/-- `shl(b)`, the block shifted left by one bit, byte 0 the most significant (R92). -/
def shiftLeftBlock (b : Block) : Block :=
  Vector.ofFn fun i : Fin 16 =>
    if h : i.val < 15 then (b[i.val] <<< 1) ||| (b[i.val + 1] >>> 7) else b[15] <<< 1

/-- One subkey from the value before it (R93): the shift, with 0x87 added to byte 15 when the most
significant bit of that value is 1. -/
def nextSubkey (b : Block) : Block :=
  let k := shiftLeftBlock b
  if b[0].getLsbD 7 then k.set 15 (k[15] ^^^ 0x87) else k

/-- The subkey K1 (R93). -/
def subkey1 (enc : Block → Block) : Block := nextSubkey (enc zeroBlock)

/-- The subkey K2 (R93). -/
def subkey2 (enc : Block → Block) : Block := nextSubkey (subkey1 enc)

/-- The number of blocks of a message of `len` bytes: ceil(len / 16), and 1 for the empty message
(R94). -/
def cmacBlockCount (len : Nat) : Nat := if len = 0 then 1 else (len + 15) / 16

/-- M_i, the bytes M[16(i-1) .. min(16i, len(M))) (R94, R100). -/
def messageBlock (m : List Byte) (i : Nat) : List Byte := (m.drop (16 * (i - 1))).take 16

/-- M_last (R95). -/
def lastBlock (enc : Block → Block) (m : List Byte) : Block :=
  let mn := messageBlock m (cmacBlockCount m.length)
  if m.length > 0 ∧ m.length % 16 = 0 then xorBlock (blockOfBytes mn) (subkey1 enc)
  else xorBlock (blockOfBytes (mn ++ [0x80] ++ List.replicate (15 - mn.length) 0x00)) (subkey2 enc)

/-- The chain value after the blocks 1 .. j, X starting at zeros(16) (R96). -/
def cmacChain (enc : Block → Block) (m : List Byte) : Nat → Block
  | 0 => zeroBlock
  | j + 1 => enc (xorBlock (cmacChain enc m j) (blockOfBytes (messageBlock m (j + 1))))

/-- `CMAC(k, M)`, the 16-byte tag (R96, R97). -/
def cmacTag (enc : Block → Block) (m : List Byte) : Block :=
  enc (xorBlock (cmacChain enc m (cmacBlockCount m.length - 1)) (lastBlock enc m))

/-- `MIC(k, M)`, the first 4 bytes of the tag (R97). -/
def micBytes (tag : Block) : List Byte := [tag[0], tag[1], tag[2], tag[3]]

/-- The result of CMAC k: BLKOUT becomes CMAC(k, DATA[0..LEN)); MIC is not written (R98). -/
def cmacResult (k : Slot) (s : State) : State := s.setBlkout (cmacTag (s.enc k) s.payload)

/-- CMAC k (R98). -/
def execCmac (k : Slot) (s : State) : Host.Outcome State Fault Refusal :=
  runCommand (.cmac k) (cmacResult k) s

end Sys2Proof.Machine
end

