-- ==== Sys2Proof/Machine/Ctr.lean ====
section
/-! DEFINITION. The counter-mode payload cipher, over any block encryption `enc`, and the command CTR
(spec/42_ctr.md R99 to R103). -/

namespace Sys2Proof.Machine

/-- The tail that A_i and B0 share: le32(a) || le32(c) || [0x00, n], after a tag byte, four zero bytes
and the direction byte (R99, R105). -/
def counterBlock (tag d : Byte) (a c : Word) (n : Byte) : Block :=
  blockOfBytes ([tag, 0x00, 0x00, 0x00, 0x00, d] ++ le32 a ++ le32 c ++ [0x00, n])

/-- A_i (R99). -/
def keystreamInput (d : Byte) (a c : Word) (i : Nat) : Block :=
  counterBlock 0x01 d a c (BitVec.ofNat 8 i)

/-- The block indices 1 .. ceil(len / 16) of a payload of `len` bytes (R100). -/
def ctrBlockIndices (len : Nat) : List Nat := List.range' 1 ((len + 15) / 16)

/-- P_i XOR S_i, with S_i cut to the length of P_i (R101). -/
def ctrChunk (enc : Block → Block) (d : Byte) (a c : Word) (p : List Byte) (i : Nat) : List Byte :=
  xorBytes (messageBlock p i) (enc (keystreamInput d a c i)).toList

/-- `transform(k, d, a, c, P)` (R101). -/
def transform (enc : Block → Block) (d : Byte) (a c : Word) (p : List Byte) : List Byte :=
  (ctrBlockIndices p.length).flatMap (ctrChunk enc d a c p)

/-- The result of CTR k, dir=d: OUT[0..LEN) becomes transform(k, d, DEVADDR, CTR_FCNT, DATA[0..LEN))
(R103). -/
def ctrResult (k : Slot) (d : Byte) (s : State) : State :=
  s.writeOut (transform (s.enc k) d s.devaddr s.ctrFcnt s.payload)

/-- CTR k, dir=d (R103). -/
def execCtr (k : Slot) (d : Byte) (s : State) : Host.Outcome State Fault Refusal :=
  runCommand (.ctr k d) (ctrResult k d) s

end Sys2Proof.Machine
end

