-- ==== Sys2Proof/Machine/Frame.lean ====
section
/-! DEFINITION. The frame builder and the command BUILD (spec/43_frame.md R104 to R110). -/

namespace Sys2Proof.Machine

/-- H = [MHDR] || le32(a) || [FCTRL] || le16(f) (R104). -/
def frameHeader (mhdr : Byte) (a : Word) (fctrl : Byte) (f : BitVec 16) : List Byte :=
  [mhdr] ++ le32 a ++ [fctrl] ++ le16 f

/-- B0 (R105). -/
def authBlock (d : Byte) (a : Word) (f : BitVec 16) (m : Nat) : Block :=
  counterBlock 0x49 d a (f.setWidth 32) (BitVec.ofNat 8 m)

/-- The inputs of one frame (R108): the register values and the payload. -/
structure FrameInputs where
  mhdr : Byte
  fctrl : Byte
  devaddr : Word
  fcnt : BitVec 16
  payload : List Byte
deriving DecidableEq, Repr

/-- C, the payload encrypted under the confidentiality key, direction uplink (R107, R108 step 1). -/
def frameCiphertext (enc0 : Block → Block) (x : FrameInputs) : List Byte :=
  transform enc0 0x00 x.devaddr (x.fcnt.setWidth 32) x.payload

/-- H of a frame (R108 step 2). -/
def frameHeaderOf (x : FrameInputs) : List Byte := frameHeader x.mhdr x.devaddr x.fctrl x.fcnt

/-- T, the tag of B0 || H || C under the integrity key (R106, R108 steps 3 and 4). -/
def frameTag (enc0 enc1 : Block → Block) (x : FrameInputs) : Block :=
  cmacTag enc1
    ((authBlock 0x00 x.devaddr x.fcnt (8 + x.payload.length)).toList ++ frameHeaderOf x
      ++ frameCiphertext enc0 x)

/-- F = H || C || T[0..4) (R107, R108 step 5). -/
def frameBytes (enc0 enc1 : Block → Block) (x : FrameInputs) : List Byte :=
  frameHeaderOf x ++ frameCiphertext enc0 x ++ micBytes (frameTag enc0 enc1 x)

/-- The MIC register's word: tag byte 0 in bits 7:0 (R35, R108). -/
def micWord (tag : Block) : Word := wordOfLanes tag[0] tag[1] tag[2] tag[3]

/-- The operands BUILD reads (R108). -/
def State.frameInputs (s : State) : FrameInputs :=
  { mhdr := s.mhdr, fctrl := s.fctrl, devaddr := s.devaddr, fcnt := s.fcnt, payload := s.payload }

/-- The result of BUILD: OUT[0..LEN+12), FRAME_LEN and MIC; FCNT and BLKOUT are not written (R108,
R109). -/
def buildResult (s : State) : State :=
  { s.writeOut (frameBytes (s.enc .slot0) (s.enc .slot1) s.frameInputs) with
    frameLen := BitVec.ofNat 9 (s.length + 12)
    mic := micWord (frameTag (s.enc .slot0) (s.enc .slot1) s.frameInputs) }

/-- BUILD (R108). -/
def execBuild (s : State) : Host.Outcome State Fault Refusal :=
  runCommand .build buildResult s

end Sys2Proof.Machine
end

