-- ==== Sys2Proof/Machine/Bus.lean ====
section
/-! DEFINITION. The register map and the host's bus reads and writes, but for what a presented command
does (spec/10_state.md R20 to R41; spec/20_memory.md R45, R46, R49; spec/30_encoding.md R70). -/

namespace Sys2Proof.Machine

/-- The word-sized locations of the window (R20). -/
inductive Location where
  | id
  | ctrl
  | status
  | cmd
  | len
  | frameLen
  | devaddr
  | fcnt
  | ctrFcnt
  | fhdr
  | mic
  /-- KEYk_j (R36). -/
  | key (k : Slot) (j : Fin 4)
  /-- BLKINj (R38). -/
  | blkin (j : Fin 4)
  /-- BLKOUTj (R39). -/
  | blkout (j : Fin 4)
  /-- Word j of DATA (R40). -/
  | data (j : Fin 64)
  /-- Word j of OUT (R41). -/
  | out (j : Fin 64)
  /-- A reserved offset (R21). -/
  | reserved
deriving DecidableEq, Repr

/-- The location at a word index, its byte offset divided by 4 (R20). -/
def locationOfIndex (w : Nat) : Location :=
  match w with
  | 0 => .id
  | 1 => .ctrl
  | 2 => .status
  | 3 => .cmd
  | 4 => .len
  | 5 => .frameLen
  | 6 => .devaddr
  | 7 => .fcnt
  | 8 => .ctrFcnt
  | 9 => .fhdr
  | 10 => .mic
  | _ =>
    if 0x30 / 4 ≤ w ∧ w < 0x40 / 4 then .key .slot0 (Fin.ofNat 4 w)
    else if 0x40 / 4 ≤ w ∧ w < 0x50 / 4 then .key .slot1 (Fin.ofNat 4 w)
    else if 0x50 / 4 ≤ w ∧ w < 0x60 / 4 then .blkin (Fin.ofNat 4 w)
    else if 0x60 / 4 ≤ w ∧ w < 0x70 / 4 then .blkout (Fin.ofNat 4 w)
    else if 0x100 / 4 ≤ w ∧ w < 0x200 / 4 then .data (Fin.ofNat 64 w)
    else if 0x200 / 4 ≤ w ∧ w < 0x300 / 4 then .out (Fin.ofNat 64 w)
    else .reserved

/-- The location at a byte offset: PADDR[1:0] is ignored (R20, R45, R46, R49). -/
def locationAt (addr : Offset) : Location := locationOfIndex (addr.toNat / 4)

/-- The constant of the ID register (R23). -/
def idWord : Word := 0x544C5231

/-- The word of four buffer bytes from a byte offset of the window on (R40, R41, R48). -/
def State.bufferWord (s : State) (addr : Nat) : Word :=
  wordOfLanes (s.byteAt addr) (s.byteAt (addr + 1)) (s.byteAt (addr + 2)) (s.byteAt (addr + 3))

/-- What a location holds as a read gives it: reserved offsets, reserved bits and write-only registers
read 0 (R20 to R41, R45). -/
def State.readLocation (s : State) : Location → Word
  | .id => idWord
  | .ctrl => (BitVec.ofBool s.keylock).setWidth 32
  | .status => s.statusWord
  | .cmd => 0
  | .len => s.len.setWidth 32
  | .frameLen => s.frameLen.setWidth 32
  | .devaddr => s.devaddr
  | .fcnt => s.fcnt.setWidth 32
  | .ctrFcnt => s.ctrFcnt
  | .fhdr => wordOfLanes s.mhdr s.fctrl 0 0
  | .mic => s.mic
  | .key _ _ => 0
  | .blkin j => blockWord s.blkin j
  | .blkout j => blockWord s.blkout j
  | .data j => s.bufferWord (dataBase + 4 * j.val)
  | .out j => s.bufferWord (outBase + 4 * j.val)
  | .reserved => 0

/-- How many bytes of OUT a command writes at completion (R41, R70). -/
def outBytesOf (i : Instr) (s : State) : Nat :=
  match i with
  | .nop => 0
  | .keyexp _ => 0
  | .encblk _ => 0
  | .cmac _ => 0
  | .ctr _ _ => s.length
  | .build => s.length + 12
  | .fcntInc => 0

/-- Whether a location is in W(cmd) (R70): a whole OUT word is, if any byte of it is written. -/
def inResults (i : Instr) (s : State) (l : Location) : Bool :=
  match l with
  | .blkout _ => match i with
    | .encblk _ => true
    | .cmac _ => true
    | _ => false
  | .out j => decide (4 * j.val < outBytesOf i s)
  | .frameLen => decide (i = .build)
  | .mic => decide (i = .build)
  | .fcnt => decide (i = .fcntInc)
  | _ => false

/-- Whether a read of the location returns any value: it is in W of the command in flight (R45). -/
def State.readIsDraw (s : State) (l : Location) : Bool :=
  match s.inflight with
  | some i => inResults i s l
  | none => false

/-- PRDATA takes an unspecified value, a new one each time (R45, U3). -/
def State.drawRead (s : State) : State :=
  { s with prdata := Config.busDraw s.draws, draws := s.draws + 1 }

/-- The outputs of the core (R47). -/
structure BusOutputs where
  prdata : Word
  pready : Bool
  pslverr : Bool
deriving DecidableEq, Repr

/-- What the core drives: PRDATA, PREADY tied to 1 and PSLVERR tied to 0 (R45, R46, R47). -/
def State.outputs (s : State) : BusOutputs := { prdata := s.prdata, pready := true, pslverr := false }

/-- A bus read (R45): PRDATA carries the result, and no state of the core changes. -/
def busRead (addr : Offset) (s : State) : State :=
  if s.readIsDraw (locationAt addr) then s.drawRead
  else { s with prdata := s.readLocation (locationAt addr) }

/-- Whether a write to the location has no effect at all: read-only and reserved ones (R21, R22). -/
def Location.ignoresWrites : Location → Bool
  | .id => true
  | .frameLen => true
  | .fcnt => true
  | .mic => true
  | .blkout _ => true
  | .out _ => true
  | .reserved => true
  | _ => false

/-- The store of the strobed byte lanes to a word of DATA (R46). -/
def storeLanes (m : Memory) (addr : Nat) (v : Word) (strb : Strobe) : Memory :=
  [0, 1, 2, 3].foldl
    (fun m i => if strb.getLsbD i then m.write (addr + i) (lane v i) else m) m

/-- A key write that is not ignored for BUSY (R37): lost with WIGN set when KEYLOCK is 1, else the
strobed bytes are written and SCHEDk_VALID becomes 0; SCHED[k] is not recomputed. -/
def writeKey (k : Slot) (j : Fin 4) (v : Word) (strb : Strobe) (s : State) : State :=
  if s.keylock then s.lostWrite
  else s.setSlot k { s.slot k with key := blockWithWord (s.slot k).key j v strb, valid := false }

/-- A write to CTRL (R24): KEYLOCK is set-only. -/
def writeCtrl (v : Word) (strb : Strobe) (s : State) : State :=
  { s with keylock := s.keylock || (strb.getLsbD 0 && v.getLsbD 0) }

/-- A write to FHDR: bits 31:16 stay 0 (R34, R46). -/
def writeFhdr (v : Word) (strb : Strobe) (s : State) : State :=
  { s with mhdr := if strb.getLsbD 0 then lane v 0 else s.mhdr
           fctrl := if strb.getLsbD 1 then lane v 1 else s.fctrl }

/-- A write to LEN: bits 31:9 stay 0 (R29, R46). -/
def writeLen (v : Word) (strb : Strobe) (s : State) : State :=
  { s with len := (mergeLanes (s.len.setWidth 32) v strb).setWidth 9 }

/-- What a bus write comes to: a new state, or a command word that the core is presented with. -/
inductive WriteEffect where
  | done (s : State)
  | present (w : Word)
deriving DecidableEq, Repr

/-- The last clauses of R46, for an idle core: the effect of a strobed write to a writable location. -/
def writeIdle (l : Location) (v : Word) (strb : Strobe) (s : State) : WriteEffect :=
  match l with
  | .cmd => .present (commandWord v strb)
  | .key k j => .done (writeKey k j v strb s)
  | .ctrl => .done (writeCtrl v strb s)
  | .len => .done (writeLen v strb s)
  | .devaddr => .done { s with devaddr := mergeLanes s.devaddr v strb }
  | .ctrFcnt => .done { s with ctrFcnt := mergeLanes s.ctrFcnt v strb }
  | .fhdr => .done (writeFhdr v strb s)
  | .blkin j => .done { s with blkin := blockWithWord s.blkin j v strb }
  | .data j => .done { s with mem := storeLanes s.mem (dataBase + 4 * j.val) v strb }
  | .id => .done s
  | .status => .done s
  | .frameLen => .done s
  | .fcnt => .done s
  | .mic => .done s
  | .blkout _ => .done s
  | .out _ => .done s
  | .reserved => .done s

/-- A bus write, its cases in R46's order. -/
def busWrite (addr : Offset) (v : Word) (strb : Strobe) (s : State) : WriteEffect :=
  let l := locationAt addr
  if strb = 0 then .done s
  else if l = .status then .done (s.clearSticky v strb)
  else if l.ignoresWrites then .done s
  else if s.busy then .done s.lostWrite
  else writeIdle l v strb s

end Sys2Proof.Machine
end

