-- ==== Sys2Proof/Machine/AesCommands.lean ====
section
/-! DEFINITION. The AES commands KEYEXP and ENCBLK (spec/40_aes.md R88, R90, R91). -/

namespace Sys2Proof.Machine

/-- The result of KEYEXP k: SCHED[k] becomes the schedule of the key of slot k, SCHEDk_VALID 1; the
other slot is untouched (R90). -/
def keyexpResult (k : Slot) (s : State) : State :=
  s.setSlot k { s.slot k with sched := keyExpansion (s.slot k).key, valid := true }

/-- KEYEXP k (R90). -/
def execKeyexp (k : Slot) (s : State) : Host.Outcome State Fault Refusal :=
  runCommand (.keyexp k) (keyexpResult k) s

/-- The result of ENCBLK k: BLKOUT becomes Enc(k, BLKIN) (R91). -/
def encblkResult (k : Slot) (s : State) : State := s.setBlkout (s.enc k s.blkin)

/-- ENCBLK k (R91). -/
def execEncblk (k : Slot) (s : State) : Host.Outcome State Fault Refusal :=
  runCommand (.encblk k) (encblkResult k) s

end Sys2Proof.Machine
end

