-- ==== Sys2Proof/Machine/Control.lean ====
section
/-! DEFINITION. The control commands NOP and FCNT_INC (spec/44_control.md R111 to R113). -/

namespace Sys2Proof.Machine

/-- The result of NOP: nothing beyond the end of a completion (R112). -/
def nopResult (s : State) : State := s

/-- NOP (R112). -/
def execNop (s : State) : Host.Outcome State Fault Refusal :=
  runCommand .nop nopResult s

/-- The result of FCNT_INC: FCNT + 1 modulo 2^16, and FCNT_WRAP set when FCNT was 0xFFFF (R113). -/
def fcntIncResult (s : State) : State :=
  { s with fcntWrap := s.fcntWrap || decide (s.fcnt = 0xFFFF), fcnt := s.fcnt + 1 }

/-- FCNT_INC (R113). -/
def execFcntInc (s : State) : Host.Outcome State Fault Refusal :=
  runCommand .fcntInc fcntIncResult s

end Sys2Proof.Machine
end

