-- ==== Sys2Proof/Machine/Dispatch.lean ====
section
/-! DEFINITION. The meaning of every command of spec/opcode_table.json, one arm each. -/

namespace Sys2Proof.Machine

def exec (i : Instr) (s : State) : Host.Outcome State Fault Refusal :=
  match i with
  | .nop => Sys2Proof.Machine.execNop s
  | .keyexp k => Sys2Proof.Machine.execKeyexp k s
  | .encblk k => Sys2Proof.Machine.execEncblk k s
  | .cmac k => Sys2Proof.Machine.execCmac k s
  | .ctr k d => Sys2Proof.Machine.execCtr k d s
  | .build => Sys2Proof.Machine.execBuild s
  | .fcntInc => Sys2Proof.Machine.execFcntInc s

end Sys2Proof.Machine
end

