-- ==== Sys2Proof/Machine/Events.lean ====
section
/-! DEFINITION. One event of the machine: a bus transaction, the engine's turn, or a change of PRESETn
(spec/10_state.md R17; spec/20_memory.md R54; spec/30_encoding.md R66, R69; spec/70_reset_and_hazards.md
R130, R131). -/

namespace Sys2Proof.Machine

/-- Presentation of a word to the idle core (R65, R66): a word that is no command is rejected, a command
is executed (its own checks on LEN and the schedules come next, in R65's order). -/
def present (w : Word) (s : State) : Host.Outcome State Fault Refusal :=
  match decode w with
  | .error e => .next (s.reject (errCodeOf e))
  | .ok i => exec i s

/-- A bus write of the host (R46, R66). -/
def hostWrite (addr : Offset) (v : Word) (strb : Strobe) (s : State) :
    Host.Outcome State Fault Refusal :=
  match busWrite addr v strb s with
  | .done s' => .next s'
  | .present w => present w s

/-- The engine's turn (R69): the command in flight completes; an idle core has no autonomous step
(R17, R132). -/
def engineStep (s : State) : Host.Outcome State Fault Refusal :=
  match s.inflight with
  | some i => exec i s
  | none => .next s

/-- The release of PRESETn: the reset state of R131, with DATA and OUT unspecified anew; what belongs to
the host and to the model's counters goes on. -/
def State.release (s : State) : State :=
  { State.reset with events := s.events, prdata := s.prdata, draws := s.draws, epoch := s.epoch + 1 }

/-- An event while PRESETn is low: the bus is ignored and nothing completes; a read's PRDATA is then
unspecified (R130; log entry 5). -/
def heldEvent (e : Event) (s : State) : State :=
  match e with
  | .read _ => s.drawRead
  | .write _ _ _ => s
  | .engine => s
  | .presetn level => if level then s.release else s

/-- An event while PRESETn is high. -/
def liveEvent (e : Event) (s : State) : Host.Outcome State Fault Refusal :=
  match e with
  | .read addr => .next (busRead addr s)
  | .write addr v strb => hostWrite addr v strb s
  | .engine => engineStep s
  | .presetn level => if level then .next s else .next { s with presetn := false }

/-- One event (R17, R54). -/
def runEvent (e : Event) (s : State) : Host.Outcome State Fault Refusal :=
  if s.presetn then liveEvent e s else .next (heldEvent e s)

/-- The step when no event is left: a command in flight completes, so that an accepted command always
completes (R69's weak fairness); an idle or reset core waits (R132). -/
def runUnscheduled (s : State) : Host.Outcome State Fault Refusal :=
  if s.presetn then engineStep s else .next s

/-- The byte offset of CMD (R28). -/
def cmdOffset : Offset := 0x00C

/-- The bus write that presents a whole command word (R28, R46). -/
def commandWrite (w : Word) : Event := .write cmdOffset w 0b1111

end Sys2Proof.Machine
end

