-- ==== Sys2Proof/Machine/Step.lean ====
section
/-! DEFINITION. One step of the machine: the next event takes effect (spec/10_state.md R17,
spec/20_memory.md R54). -/

namespace Sys2Proof.Machine

/-- Take the next event; with none left, a command in flight completes (R69). -/
def step (s : State) : Host.Outcome State Fault Refusal :=
  match s.events with
  | [] => runUnscheduled s
  | e :: rest => runEvent e { s with events := rest }

/-- The state in which the very next step presents the word `w` to the core: PRESETn high, the core
idle, and a full write of the word to CMD the next event (R28, R66). Bits of `w` at `nbits` and above
are 0. Log entry 3. -/
def State.withFetchWord (s : State) (nbits w : Nat) : State :=
  { s with presetn := true, inflight := none,
           events := commandWrite (BitVec.ofNat 32 (w % 2 ^ nbits)) :: s.events }

end Sys2Proof.Machine
end

