-- ==== Sys2Proof/Machine/Work.lean ====
section
/-! DEFINITION. The work of a command as a count of AES block encryptions, the one timing fact the spec
fixes (spec/70_reset_and_hazards.md R141). It is read off the same block lists and counts that the
meanings run over. -/

namespace Sys2Proof.Machine

/-- Block encryptions of one CMAC computation over `len` bytes: one for L, one for each block (R96). -/
def cmacWork (len : Nat) : Nat := 1 + cmacBlockCount len

/-- Block encryptions of one transform of `len` bytes, one for each A_i (R101). -/
def ctrWork (len : Nat) : Nat := (ctrBlockIndices len).length

/-- Block encryptions of a command when LEN is `len` (R141). -/
def commandWork (i : Instr) (len : Nat) : Nat :=
  match i with
  | .nop => 0
  | .keyexp _ => 0
  | .encblk _ => 1
  | .cmac _ => cmacWork len
  | .ctr _ _ => ctrWork len
  | .build => ctrWork len + cmacWork (16 + 8 + len)
  | .fcntInc => 0

end Sys2Proof.Machine
end

