-- ==== Sys2Proof/Safety.lean ====
section
/-! DEFINITION. What a sound state of the core is, and what the host can see of a state: the terms the
statements use (spec/10_state.md R25, R26, R31; spec/20_memory.md R45, R53; spec/30_encoding.md R68). -/

namespace Sys2Proof.Machine

/-- The invariant of the machine: it holds after reset and every step keeps it. -/
structure Inv (s : State) : Prop where
  /-- The byte store keeps its canonical form. -/
  memWf : s.mem.wf = true
  /-- Only DATA and OUT bytes are stored (R52). -/
  memInBuffers : s.mem.inBuffers = true
  /-- BUSY = 1 and DONE = 1 never hold together (R25). -/
  busyNotDone : s.inflight.isSome = true → s.done = false
  /-- ERRCODE is 0 from acceptance to completion (R68; against R121, log entry 21). -/
  busyOk : s.inflight.isSome = true → s.errcode = .ok
  /-- The checks the command in flight passed at presentation still hold (R44, R65, R69). -/
  inflightSound : ∀ i, s.inflight = some i → operandErrors i s = none
  /-- A valid schedule is the schedule of the key in its slot (R26). -/
  schedulesCurrent : ∀ k, (s.slot k).valid = true → (s.slot k).sched = keyExpansion (s.slot k).key
  /-- FRAME_LEN is 0, or the length of a frame, 12 to 254 (R31). -/
  frameLenRange : s.frameLen = 0 ∨ (12 ≤ s.frameLen.toNat ∧ s.frameLen.toNat ≤ 254)

/-- The next event does not touch PRESETn: the reset line stays where it is in this step. -/
def State.noResetNext (s : State) : Prop := ∀ level rest, s.events ≠ .presetn level :: rest

/-- No event to come touches PRESETn. -/
def noReset (es : List Event) : Prop := ∀ level, Event.presetn level ∉ es

/-- The events are bus transactions only: neither the engine's turn nor a change of PRESETn. -/
def busOnly (es : List Event) : Prop := Event.engine ∉ es ∧ noReset es


end Sys2Proof.Machine
end

