-- ==== Sys2Proof/Certificates/Slice0/Obligations.lean ====
section
/-! DEFINITION. The statements for the provers. -/

open Sys2Proof Sys2Proof.Machine

/-! ### Encoding -/

/-- R60 to R63, R65, R73: the decoder reads back every well-formed command, and a word it accepts is the
word that command is written as, so no bit of a word is dropped. -/
def Obligations.DecodeEncodeAgree : Prop :=
  (∀ i : Instr, i.wellFormed = true → decode (encode i) = .ok i) ∧
  (∀ (w : Word) (i : Instr), decode w = .ok i → i.wellFormed = true ∧ encode i = w)

/-- R63: a word is a command exactly when it matches a row of the table, and no word matches two rows. -/
def Obligations.TableRowsAreTheCommands : Prop :=
  (∀ w : Word, (∃ i, decode w = .ok i) ↔ ∃ r ∈ commandTable, r.covers w = true) ∧
  commandTable.Pairwise (fun r q => ∀ w : Word, ¬ (r.covers w = true ∧ q.covers w = true))

/-- R64: presented to an idle core, a word with an OP above 0x06 is rejected with code 1; a word with a
legal OP and a 1 in a reserved field or a field its opcode does not use is rejected with code 2; every
other word is one command of R63, matches its row, and is executed. -/
def Obligations.IllegalAndReservedWordsAreRejected : Prop :=
  ∀ (w : Word) (s : State), s.inflight = none →
    let op := (w.extractLsb' 0 8).toNat
    let bad := w.extractLsb' 9 7 ≠ 0 ∨ w.extractLsb' 24 8 ≠ 0 ∨
      (w.getLsbD 8 = true ∧ op ∉ [1, 2, 3, 4]) ∨ (w.extractLsb' 16 8 ≠ 0 ∧ op ≠ 4)
    (op > 6 → present w s = .next { s with done := true, errcode := .illegalOp }) ∧
    (op ≤ 6 → bad → present w s = .next { s with done := true, errcode := .reservedField }) ∧
    (op ≤ 6 → ¬ bad → ∃ i, encode i = w ∧ present w s = exec i s ∧
      ∃ r ∈ commandTable, r.covers w = true)

/-- R65, R66, R67, R68: `decode(w)` as R65 lists its checks, on the word read as a number, with the
rejection of R67 and the acceptance of R68. That ERRCODE is 0 from the acceptance on is R68's side of its
disagreement with R121, which the model takes by log entry 21. -/
def Obligations.PresentationFollowsTheCheckOrder : Prop :=
  ∀ (n : Nat) (s : State), n < 2 ^ 32 → s.inflight = none →
    let op := n % 256
    let ksel := n / 256 % 2
    let low := n / 512 % 128
    let dir := n / 65536 % 256
    let high := n / 16777216
    let k : Slot := if ksel = 1 then .slot1 else .slot0
    let valid (j : Slot) : Bool := match j with
      | .slot0 => s.slot0.valid
      | .slot1 => s.slot1.valid
    let rejected (c : ErrCode) : State := { s with done := true, errcode := c }
    let command : Instr :=
      if op = 0 then .nop else if op = 1 then .keyexp k else if op = 2 then .encblk k
      else if op = 3 then .cmac k else if op = 4 then .ctr k (BitVec.ofNat 8 dir)
      else if op = 5 then .build else .fcntInc
    present (BitVec.ofNat 32 n) s = .next
      (if op > 6 then rejected .illegalOp
       else if low ≠ 0 ∨ high ≠ 0 then rejected .reservedField
       else if op ∉ [1, 2, 3, 4] ∧ ksel ≠ 0 then rejected .reservedField
       else if op ≠ 4 ∧ dir ≠ 0 then rejected .reservedField
       else if op ∈ [3, 4] ∧ s.len.toNat > 256 then rejected .length
       else if op = 5 ∧ s.len.toNat > 242 then rejected .length
       else if op ∈ [2, 3, 4] ∧ valid k = false then rejected .noSchedule
       else if op = 5 ∧ (s.slot0.valid = false ∨ s.slot1.valid = false) then rejected .noSchedule
       else { s with inflight := some command, done := false, errcode := .ok })

/-- R73, R64: a few words written out, one of each command, read as the command they stand for; and two
rejected words are included, one with an illegal OP and one with KSEL set where BUILD does not use it. -/
def Obligations.SampleWordsDecode : Prop :=
  decode 0x00000000 = .ok .nop ∧ decode 0x00000101 = .ok (.keyexp .slot1) ∧
  decode 0x00000002 = .ok (.encblk .slot0) ∧ decode 0x00000103 = .ok (.cmac .slot1) ∧
  decode 0x00FF0104 = .ok (.ctr .slot1 0xFF) ∧ decode 0x00000005 = .ok .build ∧
  decode 0x00000006 = .ok .fcntInc ∧ decode 0x00000007 = .error .illegalOp ∧
  decode 0x00000105 = .error .reservedField

/-! ### The step and the commands' two events -/

/-- R66, R69: a step runs the decoded command. A strobed write to CMD makes the step of an idle core
present the masked word; when that word decodes to a well-formed command, the step is the command's
`exec` after the event is taken. While a command is in flight, the engine's turn is its `exec` too. That a
step takes the next event of the list, and that the end of the events is the engine's turn (the fourth
clause), is the model's choice of log entry 3, not R66's or R69's. -/
def Obligations.StepRunsTheDecodedCommand : Prop :=
  (∀ (s : State) (addr : Offset) (v : Word) (strb : Strobe) (rest : List Event),
    s.presetn = true → s.inflight = none → s.events = .write addr v strb :: rest →
    addr.toNat / 4 = 3 → strb ≠ 0 →
    step s = present (commandWord v strb) { s with events := rest }) ∧
  (∀ (s : State) (addr : Offset) (v : Word) (strb : Strobe) (rest : List Event) (i : Instr),
    s.presetn = true → s.inflight = none → s.events = .write addr v strb :: rest →
    addr.toNat / 4 = 3 → strb ≠ 0 → decode (commandWord v strb) = .ok i → i.wellFormed = true →
    step s = exec i { s with events := rest }) ∧
  (∀ (s : State) (rest : List Event) (i : Instr),
    s.presetn = true → s.inflight = some i → s.events = .engine :: rest →
    step s = exec i { s with events := rest }) ∧
  (∀ (s : State) (i : Instr),
    s.presetn = true → s.inflight = some i → s.events = [] → step s = exec i s)

/-- The model's own: after `withFetchWord` the very next step runs the command of the word. -/
def Obligations.FetchWordIsRunByTheNextStep : Prop :=
  ∀ (s : State) (nbits w : Nat) (i : Instr), decodeTableWord nbits w = some i →
    step (s.withFetchWord nbits w) = exec i { s with presetn := true, inflight := none }

/-- R68: presented to an idle core with its operands in order, every command is accepted: BUSY 1, DONE
0, ERRCODE 0, and it is the one in flight; nothing else changes. That ERRCODE is 0 from then on is R68's
side of its disagreement with R121, which the model takes by log entry 21. -/
def Obligations.CommandWithGoodOperandsIsAccepted : Prop :=
  ∀ (i : Instr) (s : State), s.inflight = none → operandErrors i s = none →
    exec i s = .next { s with inflight := some i, done := false, errcode := .ok }

/-- R67, R115, R116: a rejection changes DONE and ERRCODE only. ENCBLK, CMAC, CTR and BUILD without the
schedules they need give NO_SCHEDULE; CMAC and CTR with LEN above 256 and BUILD with LEN above 242 give
LENGTH, before NO_SCHEDULE; NOP, KEYEXP and FCNT_INC are never rejected so. -/
def Obligations.CommandWithBadOperandsIsRejected : Prop :=
  ∀ (s : State) (k : Slot) (d : Byte), s.inflight = none →
    let rejected (c : ErrCode) : State := { s with done := true, errcode := c }
    (∀ i ∈ [Instr.cmac k, .ctr k d], s.len.toNat > 256 → exec i s = .next (rejected .length)) ∧
    (s.len.toNat > 242 → exec .build s = .next (rejected .length)) ∧
    ((s.slot k).valid = false → exec (.encblk k) s = .next (rejected .noSchedule)) ∧
    (∀ i ∈ [Instr.cmac k, .ctr k d], s.len.toNat ≤ 256 → (s.slot k).valid = false →
      exec i s = .next (rejected .noSchedule)) ∧
    (s.len.toNat ≤ 242 → (s.slot k).valid = false →
      exec .build s = .next (rejected .noSchedule)) ∧
    (∀ i ∈ [Instr.nop, .keyexp k, .fcntInc], ∀ c, exec i s ≠ .next (rejected c))

/-- R112, R69: the completion of NOP changes BUSY, DONE and ERRCODE only. -/
def Obligations.NopCompletes : Prop :=
  ∀ s : State, s.inflight = some .nop →
    exec .nop s = .next { s with inflight := none, done := true, errcode := .ok }

/-- R90, R69: the completion of KEYEXP k makes SCHED[k] the schedule of the key of slot k and sets
SCHEDk_VALID; the key, the other slot and everything but BUSY, DONE and ERRCODE are unchanged. -/
def Obligations.KeyexpCompletes : Prop :=
  ∀ s : State,
    (s.inflight = some (.keyexp .slot0) → exec (.keyexp .slot0) s = .next
      { s with slot0 := { key := s.slot0.key, sched := keyExpansion s.slot0.key, valid := true },
               inflight := none, done := true, errcode := .ok }) ∧
    (s.inflight = some (.keyexp .slot1) → exec (.keyexp .slot1) s = .next
      { s with slot1 := { key := s.slot1.key, sched := keyExpansion s.slot1.key, valid := true },
               inflight := none, done := true, errcode := .ok })

/-- R91, R69: the completion of ENCBLK k makes BLKOUT the encryption of BLKIN under SCHED[k]; everything
but BUSY, DONE and ERRCODE is unchanged. -/
def Obligations.EncblkCompletes : Prop :=
  ∀ (s : State) (k : Slot), s.inflight = some (.encblk k) →
    exec (.encblk k) s = .next
      { s with blkout := cipher (s.slot k).sched s.blkin,
               inflight := none, done := true, errcode := .ok }

/-- R98, R69: the completion of CMAC k makes BLKOUT the CMAC of DATA[0..LEN) under SCHED[k]; MIC and
everything but BUSY, DONE and ERRCODE are unchanged. -/
def Obligations.CmacCompletes : Prop :=
  ∀ (s : State) (k : Slot), s.inflight = some (.cmac k) →
    exec (.cmac k) s = .next
      { s with blkout := cmacTag (cipher (s.slot k).sched) ((List.range s.len.toNat).map s.dataByte),
               inflight := none, done := true, errcode := .ok }

/-- R103, R69, R41: the completion of CTR k, dir=d writes the transform of DATA[0..LEN) to OUT[0..LEN),
leaves every other buffer byte as it was, and changes nothing else but BUSY, DONE and ERRCODE. -/
def Obligations.CtrCompletes : Prop :=
  ∀ (s : State) (k : Slot) (d : Byte), s.inflight = some (.ctr k d) →
    let r := transform (cipher (s.slot k).sched) d s.devaddr s.ctrFcnt
      ((List.range s.len.toNat).map s.dataByte)
    ∃ t, exec (.ctr k d) s = .next t ∧
      t = { s with mem := t.mem, inflight := none, done := true, errcode := .ok } ∧
      (∀ n, n < s.len.toNat → r[n]? = some (t.outByte n)) ∧
      (∀ a, (a < 0x200 ∨ 0x200 + s.len.toNat ≤ a) → t.byteAt a = s.byteAt a)

/-- R108, R69, R41, with R104 to R107 spelt out: the completion of BUILD writes H || C || T[0..4) to
OUT[0..LEN+12), LEN + 12 to FRAME_LEN and T[0..4) to MIC, leaves every other buffer byte as it was, and
changes nothing else but BUSY, DONE and ERRCODE. -/
def Obligations.BuildCompletes : Prop :=
  ∀ s : State, s.inflight = some .build →
    let n := s.len.toNat
    let p := (List.range n).map s.dataByte
    let a := [lane s.devaddr 0, lane s.devaddr 1, lane s.devaddr 2, lane s.devaddr 3]
    let f := [s.fcnt.extractLsb' 0 8, s.fcnt.extractLsb' 8 8]
    let c := transform (cipher s.slot0.sched) 0x00 s.devaddr (s.fcnt.setWidth 32) p
    let h := [s.mhdr] ++ a ++ [s.fctrl] ++ f
    let b := [0x49, 0, 0, 0, 0, 0x00] ++ a ++ f ++ [0, 0] ++ [0x00, BitVec.ofNat 8 (8 + n)]
    let tag := cmacTag (cipher s.slot1.sched) (b ++ h ++ c)
    let frame := h ++ c ++ [tag[0], tag[1], tag[2], tag[3]]
    ∃ t, exec .build s = .next t ∧
      t = { s with mem := t.mem, frameLen := BitVec.ofNat 9 (n + 12),
                   mic := wordOfLanes tag[0] tag[1] tag[2] tag[3],
                   inflight := none, done := true, errcode := .ok } ∧
      (∀ j, j < n + 12 → frame[j]? = some (t.outByte j)) ∧
      (∀ x, (x < 0x200 ∨ 0x200 + (n + 12) ≤ x) → t.byteAt x = s.byteAt x)

/-- R113, R69: the completion of FCNT_INC adds 1 to FCNT modulo 2^16 and sets FCNT_WRAP when FCNT was
0xFFFF; it changes nothing else but BUSY, DONE and ERRCODE. -/
def Obligations.FcntIncCompletes : Prop :=
  ∀ s : State, s.inflight = some .fcntInc →
    exec .fcntInc s = .next
      { s with fcnt := BitVec.ofNat 16 ((s.fcnt.toNat + 1) % 2 ^ 16),
               fcntWrap := if s.fcnt.toNat = 0xFFFF then true else s.fcntWrap,
               inflight := none, done := true, errcode := .ok }

/-! ### AES -/

/-- R77 (and so R78's table): SBOX(x) is the affine map of the inverse of x, and bit i of the map is the
sum of the five bits R77 names and bit i of 0x63. -/
def Obligations.SboxTableIsAffineOfInverse : Prop :=
  (∀ x : Byte, sbox x = affine (gfInv x)) ∧
  (∀ (b : Byte) (i : Fin 8), (affine b).getLsbD i.val =
    (b.getLsbD i.val ^^ b.getLsbD ((i.val + 4) % 8) ^^ b.getLsbD ((i.val + 5) % 8) ^^
      b.getLsbD ((i.val + 6) % 8) ^^ b.getLsbD ((i.val + 7) % 8) ^^ (0x63 : Byte).getLsbD i.val))

/-- R76: multiplication by {02} and {03}, the inverse of every nonzero byte, and 0 for 0. -/
def Obligations.FieldMultiplicationAndInverse : Prop :=
  (∀ b : Byte, gfMul 2 b = xtime b ∧ gfMul 3 b = xtime b ^^^ b) ∧
  (∀ b : Byte, b ≠ 0 → gfMul b (gfInv b) = 1) ∧ gfInv 0 = 0 ∧ gfMul 0x57 0x83 = 0xC1

/-- R79: SubBytes substitutes each byte on its own, and the substitution is a permutation; with R79's
values and example. -/
def Obligations.SubBytesSubstitutesEachByte : Prop :=
  (∀ (s : Block) (i : Fin 16), (subBytes s)[i] = sbox s[i]) ∧
  (∀ x y : Byte, sbox x = sbox y → x = y) ∧
  sbox 0x00 = 0x63 ∧ sbox 0x53 = 0xED ∧ sbox 0xFF = 0x16 ∧
  subBytes #v[0x00, 0x01, 0x02, 0x03, 0x04, 0x05, 0x06, 0x07, 0x08, 0x09, 0x0a, 0x0b, 0x0c, 0x0d, 0x0e,
      0x0f] =
    #v[0x63, 0x7c, 0x77, 0x7b, 0xf2, 0x6b, 0x6f, 0xc5, 0x30, 0x01, 0x67, 0x2b, 0xfe, 0xd7, 0xab, 0x76]

/-- R80: row r is rotated left by r positions, and row 0 is unchanged; with R80's example. -/
def Obligations.ShiftRowsRotatesTheRows : Prop :=
  (∀ (s : Block) (c : Fin 4),
    (∀ r : Fin 4, (shiftRows s)[r.val + 4 * c.val]'(by omega)
      = s[r.val + 4 * ((c.val + r.val) % 4)]'(by omega)) ∧
    (shiftRows s)[4 * c.val]'(by omega) = s[4 * c.val]'(by omega)) ∧
  shiftRows #v[0x00, 0x01, 0x02, 0x03, 0x04, 0x05, 0x06, 0x07, 0x08, 0x09, 0x0a, 0x0b, 0x0c, 0x0d, 0x0e,
      0x0f] =
    #v[0x00, 0x05, 0x0a, 0x0f, 0x04, 0x09, 0x0e, 0x03, 0x08, 0x0d, 0x02, 0x07, 0x0c, 0x01, 0x06, 0x0b]

/-- R81: each column is replaced by the four sums; a column of four equal bytes is a fixed point; with
R81's four example columns. -/
def Obligations.MixColumnsMixesEachColumn : Prop :=
  (∀ (s : Block) (c : Fin 4) (a0 a1 a2 a3 : Byte),
    s[4 * c.val]'(by omega) = a0 → s[4 * c.val + 1]'(by omega) = a1 →
    s[4 * c.val + 2]'(by omega) = a2 → s[4 * c.val + 3]'(by omega) = a3 →
    (mixColumns s)[4 * c.val]'(by omega) = gfMul 2 a0 ^^^ gfMul 3 a1 ^^^ a2 ^^^ a3 ∧
    (mixColumns s)[4 * c.val + 1]'(by omega) = a0 ^^^ gfMul 2 a1 ^^^ gfMul 3 a2 ^^^ a3 ∧
    (mixColumns s)[4 * c.val + 2]'(by omega) = a0 ^^^ a1 ^^^ gfMul 2 a2 ^^^ gfMul 3 a3 ∧
    (mixColumns s)[4 * c.val + 3]'(by omega) = gfMul 3 a0 ^^^ a1 ^^^ a2 ^^^ gfMul 2 a3) ∧
  (∀ (s : Block) (c : Fin 4) (b : Byte), (∀ r : Fin 4, s[4 * c.val + r.val]'(by omega) = b) →
    ∀ r : Fin 4, (mixColumns s)[4 * c.val + r.val]'(by omega) = b) ∧
  mixColumns #v[0xdb, 0x13, 0x53, 0x45, 0xf2, 0x0a, 0x22, 0x5c, 0xd4, 0xd4, 0xd4, 0xd5, 0x2d, 0x26,
      0x31, 0x4c] =
    #v[0x8e, 0x4d, 0xa1, 0xbc, 0x9f, 0xdc, 0x58, 0x9d, 0xd5, 0xd5, 0xd7, 0xd6, 0x4d, 0x7e, 0xbd, 0xf8]

/-- R82: AddRoundKey is the bytewise exclusive-or, and its own inverse. -/
def Obligations.AddRoundKeyIsItsOwnInverse : Prop :=
  ∀ s rk : Block, (∀ i : Fin 16, (addRoundKey s rk)[i] = s[i] ^^^ rk[i]) ∧
    addRoundKey (addRoundKey s rk) rk = s

/-- R83, R85, R86: the words of the schedule obey the recurrence of KeyExpansion, byte m of word i being
byte 4(i mod 4) + m of round key i div 4; round key 0 is the key; and the round constants are R83's ten
values, each {02} times the one before, from 01 on. -/
def Obligations.KeyScheduleObeysTheRecurrence : Prop :=
  ∀ key : Block,
    let w (i : Fin 44) (m : Fin 4) : Byte :=
      ((keyExpansion key)[i.val / 4]'(by omega))[4 * (i.val % 4) + m.val]'(by omega)
    (∀ (i : Fin 44) (m : Fin 4) (h : i.val < 4), w i m = key[4 * i.val + m.val]'(by omega)) ∧
    (∀ (i : Fin 44) (m : Fin 4) (h : 4 ≤ i.val),
      w i m = w ⟨i.val - 4, by omega⟩ m ^^^
        (if i.val % 4 = 0 then
          sbox (w ⟨i.val - 1, by omega⟩ ⟨(m.val + 1) % 4, by omega⟩) ^^^
            (if m.val = 0 then rcon (i.val / 4) else 0x00)
         else w ⟨i.val - 1, by omega⟩ m)) ∧
    (keyExpansion key)[0] = key ∧
    (List.range' 1 10).map rcon = [0x01, 0x02, 0x04, 0x08, 0x10, 0x20, 0x40, 0x80, 0x1b, 0x36] ∧
    rcon 1 = 0x01 ∧ ∀ j : Fin 9, rcon (j.val + 2) = gfMul 2 (rcon (j.val + 1))

/-- R87: the order of the steps of the cipher. -/
def Obligations.CipherRunsTheRoundsInOrder : Prop :=
  ∀ (rks : Schedule) (input : Block),
    cipher rks input =
      addRoundKey (shiftRows (subBytes
        ((List.finRange 9).foldl
          (fun s r => addRoundKey (mixColumns (shiftRows (subBytes s))) rks[r.val + 1])
          (addRoundKey input rks[0])))) rks[10]

/-! ### CMAC -/

/-- R92: the one-bit shift, byte by byte, and as the doubling of the 128-bit number with byte 0 most
significant. -/
def Obligations.SubkeyShiftDoublesTheNumber : Prop :=
  ∀ b : Block,
    let number (x : Block) : Nat := x.toList.foldl (fun n y => 256 * n + y.toNat) 0
    (∀ i : Fin 15, (shiftLeftBlock b)[i.val] = (b[i.val] <<< 1) ||| (b[i.val + 1] >>> 7)) ∧
    (shiftLeftBlock b)[15] = b[15] <<< 1 ∧
    number (shiftLeftBlock b) = 2 * number b % 2 ^ 128

/-- R93: K1 and K2 are the shifts of L and K1, with 0x87 added to byte 15 when the most significant bit
of L or K1 is 1. -/
def Obligations.SubkeysAreConditionalShifts : Prop :=
  ∀ enc : Block → Block,
    let l := enc zeroBlock
    let k1 := subkey1 enc
    let k2 := subkey2 enc
    (∀ i : Fin 15, k1[i.val] = (shiftLeftBlock l)[i.val] ∧ k2[i.val] = (shiftLeftBlock k1)[i.val]) ∧
    k1[15] = (if l[0].getLsbD 7 = true then (shiftLeftBlock l)[15] ^^^ 0x87
      else (shiftLeftBlock l)[15]) ∧
    k2[15] = (if k1[0].getLsbD 7 = true then (shiftLeftBlock k1)[15] ^^^ 0x87
      else (shiftLeftBlock k1)[15])

/-- R94, R95, R96: the tag of a message made of full blocks and a last part of at most 16 bytes (empty
only when the message is) is the encryption of the chain over the full blocks with the last part XOR K1
when it is a full block, padded and XOR K2 otherwise. -/
def Obligations.CmacChainsTheBlocks : Prop :=
  ∀ (enc : Block → Block) (full : List Block) (last : List Byte),
    last.length ≤ 16 → (last = [] → full = []) →
    cmacTag enc (full.flatMap (fun b => b.toList) ++ last) =
      enc (xorBlock (full.foldl (fun x m => enc (xorBlock x m)) zeroBlock)
        (if last.length = 16 then xorBlock (blockOfBytes last) (subkey1 enc)
         else xorBlock (blockOfBytes (last ++ [0x80] ++ List.replicate (15 - last.length) 0x00))
          (subkey2 enc)))

/-! ### CTR -/

/-- R99: the bytes of A_i, bytes 12 and 13 for a 16-bit counter, and R99's example. -/
def Obligations.KeystreamBlockLayout : Prop :=
  (∀ (d : Byte) (a c : Word) (i : Nat), 1 ≤ i → i ≤ 255 →
    (keystreamInput d a c i).toList =
      [0x01, 0x00, 0x00, 0x00, 0x00, d,
       a.extractLsb' 0 8, a.extractLsb' 8 8, a.extractLsb' 16 8, a.extractLsb' 24 8,
       c.extractLsb' 0 8, c.extractLsb' 8 8, c.extractLsb' 16 8, c.extractLsb' 24 8,
       0x00, BitVec.ofNat 8 i]) ∧
  (∀ (d : Byte) (a : Word) (f : BitVec 16) (i : Nat),
    (keystreamInput d a (f.setWidth 32) i)[12] = 0x00 ∧
    (keystreamInput d a (f.setWidth 32) i)[13] = 0x00) ∧
  keystreamInput 0x00 0x01020304 0x00000001 1 =
    #v[0x01, 0x00, 0x00, 0x00, 0x00, 0x00, 0x04, 0x03, 0x02, 0x01, 0x01, 0x00, 0x00, 0x00, 0x00, 0x01]

/-- R100, R101: the output is as long as the payload, and its byte n is byte n of the payload XOR byte n
mod 16 of the encryption of A_i with i = n div 16 + 1. -/
def Obligations.TransformXorsTheKeystream : Prop :=
  ∀ (enc : Block → Block) (d : Byte) (a c : Word) (p : List Byte),
    (transform enc d a c p).length = p.length ∧
    ∀ (n : Nat) (h : n < p.length), (transform enc d a c p)[n]? =
      some (p[n] ^^^ (enc (keystreamInput d a c (n / 16 + 1)))[n % 16]'(by omega))

/-- R102: the transform is an involution. -/
def Obligations.TransformIsAnInvolution : Prop :=
  ∀ (s : State) (k : Slot) (d : Byte) (a c : Word) (p : List Byte),
    transform (s.enc k) d a c (transform (s.enc k) d a c p) = p

/-! ### Frames -/

/-- R104, R105: the bytes of the header and of B0. -/
def Obligations.HeaderAndAuthBlockLayout : Prop :=
  (∀ (mhdr fctrl : Byte) (a : Word) (f : BitVec 16),
    frameHeader mhdr a fctrl f =
      [mhdr, a.extractLsb' 0 8, a.extractLsb' 8 8, a.extractLsb' 16 8, a.extractLsb' 24 8, fctrl,
       f.extractLsb' 0 8, f.extractLsb' 8 8]) ∧
  (∀ (d : Byte) (a : Word) (f : BitVec 16) (m : Nat),
    (authBlock d a f m).toList =
      [0x49, 0x00, 0x00, 0x00, 0x00, d,
       a.extractLsb' 0 8, a.extractLsb' 8 8, a.extractLsb' 16 8, a.extractLsb' 24 8,
       f.extractLsb' 0 8, f.extractLsb' 8 8, 0x00, 0x00, 0x00, BitVec.ofNat 8 m])

/-- R110: BUILD is a function of LEN, DATA[0..LEN), DEVADDR, FCNT, FHDR and the two keys: two sound
states that agree on these build the same frame. -/
def Obligations.BuildIsDeterministic : Prop :=
  ∀ s u : State, Inv s → Inv u → s.inflight = some .build → u.inflight = some .build →
    s.len = u.len → (∀ n, n < s.len.toNat → s.dataByte n = u.dataByte n) →
    s.devaddr = u.devaddr → s.fcnt = u.fcnt → s.mhdr = u.mhdr → s.fctrl = u.fctrl →
    s.slot0.key = u.slot0.key → s.slot1.key = u.slot1.key →
    ∃ t v, exec .build s = .next t ∧ exec .build u = .next v ∧
      (∀ n, n < s.len.toNat + 12 → t.outByte n = v.outByte n) ∧
      t.frameLen = v.frameLen ∧ t.mic = v.mic

/-! ### Whole-machine rules -/

/-- The invariant of the machine: every step keeps it (R25, R26, R31, R52, R68). Its clause that ERRCODE is
0 while a command is in flight is R68's side of its disagreement with R121, by log entry 21. -/
def Obligations.EveryStepKeepsTheInvariant : Prop :=
  ∀ s t : State, Inv s → step s = .next t → Inv t

/-- The invariant holds after reset. -/
def Obligations.InvariantHoldsAtReset : Prop := Inv State.reset

/-- R119, R120: the core has no fault: every step gives a next state. -/
def Obligations.EveryStepHasANextState : Prop := ∀ s : State, ∃ t, step s = .next t

/-- R111, R30: only the completion of FCNT_INC changes FCNT, by 1 modulo 2^16, and only a reset clears
it. -/
def Obligations.OnlyFcntIncAdvancesTheCounter : Prop :=
  ∀ s t : State, step s = .next t →
    t.fcnt = s.fcnt ∨
    (s.presetn = true ∧ s.inflight = some .fcntInc ∧ t.inflight = none ∧
      t.fcnt = s.fcnt + 1 ∧ (s.fcnt = 0xFFFF → t.fcntWrap = true)) ∨
    (s.presetn = false ∧ t.presetn = true ∧ t.fcnt = 0)

/-- R24, R37: once KEYLOCK is 1, no step but a reset changes it or a key. -/
def Obligations.KeylockIsPermanent : Prop :=
  ∀ s t : State, step s = .next t → s.keylock = true →
    (t.keylock = true ∧ t.slot0.key = s.slot0.key ∧ t.slot1.key = s.slot1.key) ∨
    (s.presetn = false ∧ t.presetn = true)

/-- R26: SCHEDk_VALID is set only by the completion of KEYEXP for slot k, and cleared only by a reset and
by a key write to slot k that takes effect. -/
def Obligations.OnlyKeyexpAndKeyWritesChangeValid : Prop :=
  ∀ (s t : State) (k : Slot), step s = .next t → (t.slot k).valid ≠ (s.slot k).valid →
    ((t.slot k).valid = true ∧ s.inflight = some (.keyexp k) ∧ t.inflight = none) ∨
    ((t.slot k).valid = false ∧ s.presetn = false ∧ t.presetn = true) ∨
    ((t.slot k).valid = false ∧ s.inflight = none ∧ s.keylock = false ∧
      ∃ j addr v strb rest, s.events = .write addr v strb :: rest ∧ strb ≠ 0 ∧
        locationAt addr = .key k j)

/-- R40, R41: no command writes DATA, and a command changes an OUT byte only by completing as CTR, below
LEN, or as BUILD, below LEN + 12. -/
def Obligations.CommandsWriteOnlyTheirOutBytes : Prop :=
  ∀ (i : Instr) (s t : State), exec i s = .next t →
    (∀ n, n < 256 → t.dataByte n = s.dataByte n) ∧
    (∀ n, n < 256 → t.outByte n ≠ s.outByte n → s.inflight = some i ∧
      ((∃ k d, i = .ctr k d ∧ n < s.len.toNat) ∨ (i = .build ∧ n < s.len.toNat + 12)))

/-- Whatever events are to come, but for changes of PRESETn, a command in flight has completed after as
many steps as there are events and one more, with DONE 1 and ERRCODE 0 at that moment. R69 says that the
completion is always eventually taken; the bound is the model's choice of log entry 3, by which a command
in flight completes in the next step when no event is left. -/
def Obligations.AcceptedCommandAlwaysCompletes : Prop :=
  ∀ (s : State) (i : Instr), s.presetn = true → s.inflight = some i → noReset s.events →
    ∃ n t, n ≤ s.events.length + 1 ∧ Host.Core.run Sys2Proof.core n s = .next t ∧
      t.inflight = none ∧ t.done = true ∧ t.errcode = .ok

/-- R44, R46, R54: bus transactions made while a command is in flight do not change what it computes:
when its completion comes after any number of them, the state is the one an immediate completion gives,
but for PRDATA, the draws and the two sticky bits. That each event is one step is the model's choice of
log entry 3. -/
def Obligations.HostCannotDisturbTheCommandInFlight : Prop :=
  ∀ (s : State) (i : Instr) (es rest : List Event),
    s.presetn = true → s.inflight = some i → s.events = es ++ .engine :: rest → busOnly es →
    ∃ t u, Host.Core.run Sys2Proof.core (es.length + 1) s = .next t ∧ exec i s = .next u ∧
      t = { u with events := rest, prdata := t.prdata, draws := t.draws, wign := t.wign,
                   fcntWrap := t.fcntWrap }

/-- R36, R42, R53: what the host reads never depends on a key or on a schedule: at every address two
states that differ only there give the same PRDATA, and a key register gives 0. -/
def Obligations.ReadsRevealNoKey : Prop :=
  ∀ (s : State) (key0 key1 : Block) (sched0 sched1 : Schedule) (addr : Offset),
    (busRead addr { s with slot0 := { s.slot0 with key := key0, sched := sched0 },
                           slot1 := { s.slot1 with key := key1, sched := sched1 } }).prdata
      = (busRead addr s).prdata ∧
    (0x030 ≤ addr.toNat → addr.toNat < 0x050 → (busRead addr s).prdata = 0)

/-! ### The bus -/

/-- R45: what a read returns, in R45's order, and that it changes nothing of the core. The free value of
a location in W of the command in flight is a new draw for each read. -/
def Obligations.BusReadReturnsTheLocation : Prop :=
  ∀ (s : State) (addr : Offset) (rest : List Event),
    s.presetn = true → s.events = .read addr :: rest →
    let l := locationAt addr
    let draw : Prop := ∃ i, s.inflight = some i ∧ inResults i s l = true
    (draw → step s = .next
      { s with events := rest, prdata := Config.busDraw s.draws, draws := s.draws + 1 }) ∧
    (¬ draw → step s = .next { s with events := rest, prdata := s.readLocation l }) ∧
    (l = .status → step s = .next { s with events := rest, prdata := s.statusWord })

/-- R70: the locations in W of each command. -/
def Obligations.ResultLocationsOfEachCommand : Prop :=
  ∀ (s : State) (k : Slot) (d : Byte) (l : Location),
    inResults .nop s l = false ∧ inResults (.keyexp k) s l = false ∧
    (inResults (.encblk k) s l = true ↔ ∃ j, l = .blkout j) ∧
    (inResults (.cmac k) s l = true ↔ ∃ j, l = .blkout j) ∧
    (inResults (.ctr k d) s l = true ↔ ∃ j : Fin 64, l = .out j ∧ 4 * j.val < s.len.toNat) ∧
    (inResults .build s l = true ↔
      (∃ j : Fin 64, l = .out j ∧ 4 * j.val < s.len.toNat + 12) ∨ l = .frameLen ∨ l = .mic) ∧
    (inResults .fcntInc s l = true ↔ l = .fcnt)

/-- R20, R23, R29 to R35: the registers stand at their offsets and read as their fields. -/
def Obligations.RegistersReadAtTheirOffsets : Prop :=
  ∀ s : State,
    let at_ (o : Offset) : Word := s.readLocation (locationAt o)
    at_ 0x000 = 0x544C5231 ∧ at_ 0x004 = (if s.keylock = true then 1 else 0) ∧
    at_ 0x008 = s.statusWord ∧ at_ 0x00C = 0 ∧
    at_ 0x010 = BitVec.ofNat 32 s.len.toNat ∧ at_ 0x014 = BitVec.ofNat 32 s.frameLen.toNat ∧
    at_ 0x018 = s.devaddr ∧ at_ 0x01C = BitVec.ofNat 32 s.fcnt.toNat ∧ at_ 0x020 = s.ctrFcnt ∧
    at_ 0x024 = BitVec.ofNat 32 (s.mhdr.toNat + 256 * s.fctrl.toNat) ∧ at_ 0x028 = s.mic ∧
    (∀ j : Fin 8, at_ (BitVec.ofNat 12 (0x030 + 4 * j.val)) = 0)

/-- R38 to R41, R48: byte lane m of word j of BLKIN, BLKOUT, DATA and OUT is their byte 4j + m. -/
def Obligations.BuffersReadInLittleEndianLanes : Prop :=
  ∀ (s : State) (m : Fin 4),
    let at_ (o : Nat) : Word := s.readLocation (locationAt (BitVec.ofNat 12 o))
    (∀ j : Fin 4,
      lane (at_ (0x050 + 4 * j.val)) m.val = s.blkin[4 * j.val + m.val]'(by omega) ∧
      lane (at_ (0x060 + 4 * j.val)) m.val = s.blkout[4 * j.val + m.val]'(by omega)) ∧
    (∀ j : Fin 64,
      lane (at_ (0x100 + 4 * j.val)) m.val = s.dataByte (4 * j.val + m.val) ∧
      lane (at_ (0x200 + 4 * j.val)) m.val = s.outByte (4 * j.val + m.val))

/-- R25, R26, R27: the bits of STATUS. -/
def Obligations.StatusWordBits : Prop :=
  ∀ s : State,
    s.statusWord.getLsbD 0 = s.inflight.isSome ∧ s.statusWord.getLsbD 1 = s.done ∧
    (s.statusWord.getLsbD 2 = true ↔ s.errcode ≠ .ok) ∧ s.statusWord.getLsbD 3 = false ∧
    s.statusWord.extractLsb' 4 4 = (match s.errcode with
      | .ok => 0
      | .illegalOp => 1
      | .reservedField => 2
      | .length => 3
      | .noSchedule => 4) ∧
    s.statusWord.getLsbD 8 = s.slot0.valid ∧ s.statusWord.getLsbD 9 = s.slot1.valid ∧
    s.statusWord.getLsbD 10 = s.keylock ∧ s.statusWord.getLsbD 11 = false ∧
    s.statusWord.getLsbD 12 = s.fcntWrap ∧ s.statusWord.getLsbD 13 = s.wign ∧
    s.statusWord.extractLsb' 14 18 = 0

/-- R21: reserved offsets read as zero and writes to them have no effect, whatever the state. -/
def Obligations.ReservedOffsetsAreInert : Prop :=
  ∀ (s : State) (addr : Offset),
    (addr.toNat / 4 * 4 = 0x02C ∨ (0x070 ≤ addr.toNat ∧ addr.toNat < 0x100) ∨
      0x300 ≤ addr.toNat) →
    busRead addr s = { s with prdata := 0 } ∧
    ∀ (v : Word) (strb : Strobe), busWrite addr v strb s = .done s

/-- R22: a write to a read-only register has no effect, busy or not; a write to STATUS changes none of
its read-only fields, nor anything but its two sticky bits, and sets neither; a write-only register reads
0. -/
def Obligations.AccessTypesHold : Prop :=
  ∀ (s : State) (v : Word) (strb : Strobe),
    (∀ addr : Offset, (addr.toNat / 4 * 4 ∈ [0x000, 0x014, 0x01C, 0x028] ∨
        (0x060 ≤ addr.toNat ∧ addr.toNat < 0x070) ∨
        (0x200 ≤ addr.toNat ∧ addr.toNat < 0x300)) →
      busWrite addr v strb s = .done s) ∧
    (∃ a b, busWrite 0x008 v strb s = .done { s with fcntWrap := a, wign := b } ∧
      (a = true → s.fcntWrap = true) ∧ (b = true → s.wign = true)) ∧
    (∀ addr : Offset, (addr.toNat / 4 * 4 = 0x00C ∨
        (0x030 ≤ addr.toNat ∧ addr.toNat < 0x050)) →
      busRead addr s = { s with prdata := 0 })

/-- R27: the two sticky bits are cleared by a 1 with byte lane 1 strobed, also while busy, and kept by a
0. -/
def Obligations.StickyBitsClearByWritingOne : Prop :=
  ∀ (s : State) (v : Word) (strb : Strobe) (rest : List Event),
    s.presetn = true → s.events = .write 0x008 v strb :: rest →
    step s = .next
      { s with events := rest,
               fcntWrap := if strb.getLsbD 1 = true ∧ v.getLsbD 12 = true then false else s.fcntWrap,
               wign := if strb.getLsbD 1 = true ∧ v.getLsbD 13 = true then false else s.wign }

/-- R46, R118, R66: while a command is in flight, a strobed write to any location that is writable, but
STATUS, is lost: it sets WIGN and changes nothing else. -/
def Obligations.WritesWhileBusyAreLost : Prop :=
  ∀ (s : State) (addr : Offset) (v : Word) (strb : Strobe) (rest : List Event) (i : Instr),
    s.presetn = true → s.inflight = some i → s.events = .write addr v strb :: rest → strb ≠ 0 →
    (addr.toNat / 4 * 4 ∈ [0x004, 0x00C, 0x010, 0x018, 0x020, 0x024] ∨
      (0x030 ≤ addr.toNat ∧ addr.toNat < 0x060) ∨ (0x100 ≤ addr.toNat ∧ addr.toNat < 0x200)) →
    step s = .next { s with events := rest, wign := true }

/-- R46, R49: a write with no strobe has no effect, and PADDR[1:0] is ignored by reads and writes. -/
def Obligations.StrobesAndAlignment : Prop :=
  ∀ (s : State) (addr other : Offset) (v : Word) (strb : Strobe),
    busWrite addr v 0 s = .done s ∧
    (addr.toNat / 4 = other.toNat / 4 →
      busRead addr s = busRead other s ∧ busWrite addr v strb s = busWrite other v strb s)

/-- R28: an idle core's CMD write presents PWDATA with the unstrobed byte lanes replaced by 0x00 (and
R46: one with no strobe presents nothing); CMD has no storage and reads 0. -/
def Obligations.CommandWordMasksUnstrobedLanes : Prop :=
  ∀ (s : State) (v : Word) (strb : Strobe),
    (s.busy = false → strb ≠ 0 → busWrite 0x00C v strb s = .present (commandWord v strb)) ∧
    (strb = 0 → busWrite 0x00C v strb s = .done s) ∧
    (∀ m : Fin 4,
      lane (commandWord v strb) m.val = if strb.getLsbD m.val = true then lane v m.val else 0x00) ∧
    busRead 0x00C s = { s with prdata := 0 }

/-- R37: the effect of a write to a key register. -/
def Obligations.KeyWriteEffect : Prop :=
  ∀ (s : State) (addr : Offset) (v : Word) (strb : Strobe) (k : Slot) (j : Fin 4),
    locationAt addr = .key k j →
    (strb = 0 → busWrite addr v strb s = .done s) ∧
    (strb ≠ 0 → s.busy = true ∨ s.keylock = true →
      busWrite addr v strb s = .done { s with wign := true }) ∧
    (strb ≠ 0 → s.busy = false → s.keylock = false →
      ∃ key : Block,
        busWrite addr v strb s = .done (s.setSlot k { s.slot k with key := key, valid := false }) ∧
        ∀ i : Fin 16, key[i] =
          if i.val / 4 = j.val ∧ strb.getLsbD (i.val % 4) = true then lane v (i.val % 4)
          else (s.slot k).key[i])

/-- R24: an idle core's CTRL write sets KEYLOCK when byte lane 0 is strobed and PWDATA[0] is 1, and else
leaves it. -/
def Obligations.CtrlWriteOnlySetsKeylock : Prop :=
  ∀ (s : State) (addr : Offset) (v : Word) (strb : Strobe),
    addr.toNat / 4 = 1 → s.busy = false →
    busWrite addr v strb s = .done
      { s with keylock := if strb.getLsbD 0 = true ∧ v.getLsbD 0 = true then true else s.keylock }

/-- R29, R32, R33, R34, R38, R46: an idle core's write to LEN, DEVADDR, CTR_FCNT, FHDR or BLKINj changes
the strobed byte lanes of that register, within its width, and nothing else. -/
def Obligations.OperandWritesMergeLanes : Prop :=
  ∀ (s : State) (v : Word) (strb : Strobe), s.busy = false →
    (∃ x : BitVec 9, busWrite 0x010 v strb s = .done { s with len := x } ∧
      x.setWidth 8 = (if strb.getLsbD 0 = true then lane v 0 else s.len.setWidth 8) ∧
      x.getLsbD 8 = (if strb.getLsbD 1 = true then v.getLsbD 8 else s.len.getLsbD 8)) ∧
    (∃ x : Word, busWrite 0x018 v strb s = .done { s with devaddr := x } ∧
      ∀ m : Fin 4, lane x m.val = if strb.getLsbD m.val = true then lane v m.val
        else lane s.devaddr m.val) ∧
    (∃ x : Word, busWrite 0x020 v strb s = .done { s with ctrFcnt := x } ∧
      ∀ m : Fin 4, lane x m.val = if strb.getLsbD m.val = true then lane v m.val
        else lane s.ctrFcnt m.val) ∧
    busWrite 0x024 v strb s = .done
      { s with mhdr := if strb.getLsbD 0 = true then lane v 0 else s.mhdr,
               fctrl := if strb.getLsbD 1 = true then lane v 1 else s.fctrl } ∧
    (∀ j : Fin 4, ∃ x : Block,
      busWrite (BitVec.ofNat 12 (0x050 + 4 * j.val)) v strb s = .done { s with blkin := x } ∧
      ∀ i : Fin 16, x[i] = if i.val / 4 = j.val ∧ strb.getLsbD (i.val % 4) = true
        then lane v (i.val % 4) else s.blkin[i])

/-- R40, R46, R48: an idle core's write to word j of DATA writes the strobed bytes DATA[4j+m] and leaves
every other buffer byte, and everything else, as it was. -/
def Obligations.DataWriteStoresTheStrobedBytes : Prop :=
  ∀ (s : State) (v : Word) (strb : Strobe) (j : Fin 64), s.busy = false →
    ∃ mem, busWrite (BitVec.ofNat 12 (0x100 + 4 * j.val)) v strb s = .done { s with mem := mem } ∧
      ∀ a, State.byteAt { s with mem := mem } a =
        if (a - 0x100) / 4 = j.val ∧ 0x100 ≤ a ∧ strb.getLsbD (a % 4) = true then lane v (a % 4)
        else s.byteAt a

/-! ### Reset and work -/

/-- R131, R132: the reset state, field by field, for the values the spec states. -/
def Obligations.ResetStateValues : Prop :=
  State.reset.keylock = false ∧ State.reset.done = false ∧ State.reset.errcode = .ok ∧
  State.reset.fcntWrap = false ∧ State.reset.wign = false ∧ State.reset.inflight = none ∧
  State.reset.len = 0 ∧ State.reset.fcnt = 0 ∧ State.reset.frameLen = 0 ∧
  State.reset.devaddr = 0 ∧ State.reset.ctrFcnt = 0 ∧ State.reset.mhdr = 0x40 ∧
  State.reset.fctrl = 0x00 ∧ State.reset.mic = 0 ∧
  (∀ k, (State.reset.slot k).key = zeroBlock ∧ (State.reset.slot k).valid = false) ∧
  State.reset.blkin = zeroBlock ∧ State.reset.blkout = zeroBlock ∧
  State.reset.statusWord = 0 ∧ State.reset.readLocation .id = 0x544C5231 ∧
  State.reset.readLocation .fhdr = 0x00000040

/-- R130, R131: while PRESETn is low a bus write and the engine's turn have no effect; its release gives
the reset state, whatever SCHED[0] and SCHED[1] then hold, with DATA and OUT unspecified anew. The model's
choices in it: that the state is kept while PRESETn is low (log entry 5), that PRDATA and the count of
draws go on (log entries 6 and 2), and that each reset has its own unwritten bytes (log entry 1). The zero
schedules of log entry 4 are no part of it: both are left free. -/
def Obligations.ResetReleaseGivesTheResetState : Prop :=
  ∀ (s : State) (e : Event) (rest : List Event), s.presetn = false → s.events = e :: rest →
    (e = .engine → step s = .next { s with events := rest }) ∧
    (∀ addr v strb, e = .write addr v strb → step s = .next { s with events := rest }) ∧
    (e = .presetn true → ∃ sched0 sched1 : Schedule, step s = .next
      { State.reset with events := rest, prdata := s.prdata, draws := s.draws, epoch := s.epoch + 1,
                         slot0 := { key := zeroBlock, sched := sched0, valid := false },
                         slot1 := { key := zeroBlock, sched := sched1, valid := false } }) ∧
    (e = .presetn true → ∀ t, step s = .next t → ∀ n, n < 256 →
      t.dataByte n = Config.dataInit (s.epoch + 1) n ∧
      t.outByte n = Config.outInit (s.epoch + 1) n)

/-- R141: the count of block encryptions of each command. -/
def Obligations.WorkCountsOfTheCommands : Prop :=
  ∀ (k : Slot) (d : Byte) (len : Nat),
    commandWork .nop len = 0 ∧ commandWork (.keyexp k) len = 0 ∧ commandWork (.encblk k) len = 1 ∧
    commandWork (.cmac k) len = 1 + max 1 ((len + 15) / 16) ∧
    commandWork (.ctr k d) len = (len + 15) / 16 ∧
    commandWork .build len = (len + 15) / 16 + 1 + (24 + len + 15) / 16 ∧
    commandWork .fcntInc len = 0
end

