-- ==== Sys2Proof/Laws/Bytes.lean ====
section
/-! SUPPORT. The laws of byte lanes, blocks and byte sequences. -/

namespace Sys2Proof.Machine

@[simp] theorem xorBlock_getElem (a b : Block) (i : Nat) (h : i < 16) :
    (xorBlock a b)[i] = a[i] ^^^ b[i] := by simp [xorBlock]

@[simp] theorem blockOfBytes_getElem (bs : List Byte) (i : Nat) (h : i < 16) :
    (blockOfBytes bs)[i] = bs.getD i 0 := by simp [blockOfBytes]

theorem blockWithWord_getElem (b : Block) (j : Fin 4) (v : Word) (strb : Strobe) (i : Nat)
    (h : i < 16) :
    (blockWithWord b j v strb)[i]
      = if i / 4 = j.val ∧ strb.getLsbD (i % 4) = true then lane v (i % 4) else b[i] := by
  simp [blockWithWord]

@[simp] theorem xorBytes_length (a b : List Byte) :
    (xorBytes a b).length = min a.length b.length := by simp [xorBytes]

@[simp] theorem le32_length (v : Word) : (le32 v).length = 4 := rfl

@[simp] theorem le16_length (v : BitVec 16) : (le16 v).length = 2 := rfl

/-- Bit i of lane m of a word is bit 8m + i of the word. -/
theorem lane_getLsbD (w : Word) (m i : Nat) (h : i < 8) :
    (lane w m).getLsbD i = w.getLsbD (8 * m + i) := by
  simp [lane, h]

/-- Bit i of a word made of four lanes. -/
theorem wordOfLanes_getLsbD (b0 b1 b2 b3 : Byte) (i : Nat) :
    (wordOfLanes b0 b1 b2 b3).getLsbD i
      = if i < 8 then b0.getLsbD i else if i < 16 then b1.getLsbD (i - 8)
        else if i < 24 then b2.getLsbD (i - 16) else b3.getLsbD (i - 24) := by
  simp only [wordOfLanes, BitVec.getLsbD_append, Nat.sub_sub]
  by_cases h1 : i < 8
  · simp [h1]
  · by_cases h2 : i < 16
    · simp [h1, h2, show i - 8 < 8 by omega]
    · by_cases h3 : i < 24
      · simp [h1, h2, h3, show ¬ i - 8 < 8 by omega, show i - 16 < 8 by omega]
      · simp [h1, h2, h3, show ¬ i - 8 < 8 by omega, show ¬ i - 16 < 8 by omega]

@[simp] theorem lane_wordOfLanes_zero (b0 b1 b2 b3 : Byte) :
    lane (wordOfLanes b0 b1 b2 b3) 0 = b0 :=
  BitVec.eq_of_getLsbD_eq fun i hi => by
    rw [lane_getLsbD _ _ _ hi, wordOfLanes_getLsbD]; simp [hi]

@[simp] theorem lane_wordOfLanes_one (b0 b1 b2 b3 : Byte) :
    lane (wordOfLanes b0 b1 b2 b3) 1 = b1 :=
  BitVec.eq_of_getLsbD_eq fun i hi => by
    rw [lane_getLsbD _ _ _ hi, wordOfLanes_getLsbD]; simp [show 8 + i < 16 by omega]

@[simp] theorem lane_wordOfLanes_two (b0 b1 b2 b3 : Byte) :
    lane (wordOfLanes b0 b1 b2 b3) 2 = b2 :=
  BitVec.eq_of_getLsbD_eq fun i hi => by
    rw [lane_getLsbD _ _ _ hi, wordOfLanes_getLsbD]
    simp [show ¬ 16 + i < 8 by omega,
      show ¬ 16 + i < 16 by omega, show 16 + i < 24 by omega]

@[simp] theorem lane_wordOfLanes_three (b0 b1 b2 b3 : Byte) :
    lane (wordOfLanes b0 b1 b2 b3) 3 = b3 :=
  BitVec.eq_of_getLsbD_eq fun i hi => by
    rw [lane_getLsbD _ _ _ hi, wordOfLanes_getLsbD]
    simp [show ¬ 24 + i < 8 by omega,
      show ¬ 24 + i < 16 by omega, show ¬ 24 + i < 24 by omega]

/-- A word is its four lanes. -/
@[simp] theorem wordOfLanes_lanes (w : Word) :
    wordOfLanes (lane w 0) (lane w 1) (lane w 2) (lane w 3) = w :=
  BitVec.eq_of_getLsbD_eq fun i hi => by
    rw [wordOfLanes_getLsbD]
    split
    · next h => rw [lane_getLsbD _ _ _ h]; simp
    · split
      · next h => rw [lane_getLsbD _ _ _ (by omega)]; congr 1; omega
      · split
        · next h => rw [lane_getLsbD _ _ _ (by omega)]; congr 1; omega
        · rw [lane_getLsbD _ _ _ (by omega)]; congr 1; omega

/-- Lane m of a merged word is the new byte where the strobe is 1, the old one where it is 0 (R46). -/
theorem lane_mergeLanes (old new : Word) (strb : Strobe) (m : Nat) (h : m < 4) :
    lane (mergeLanes old new strb) m = if strb.getLsbD m then lane new m else lane old m := by
  obtain rfl | rfl | rfl | rfl : m = 0 ∨ m = 1 ∨ m = 2 ∨ m = 3 := by omega
  all_goals simp [mergeLanes]

/-- A write with every strobe set replaces the whole word. -/
@[simp] theorem mergeLanes_full (old new : Word) : mergeLanes old new 0b1111 = new := by
  have h : ∀ m, m < 4 → (0b1111 : Strobe).getLsbD m = true := by decide
  simp only [mergeLanes, h 0 (by omega), h 1 (by omega), h 2 (by omega), h 3 (by omega), if_true,
    wordOfLanes_lanes]

/-- A CMD write with every strobe set presents the whole word (R28). -/
@[simp] theorem commandWord_full (v : Word) : commandWord v 0b1111 = v := mergeLanes_full 0 v

/-- Round key r of a schedule is the block of its four words. -/
theorem keyExpansion_getElem (key : Block) (r : Nat) (h : r < 11) :
    (keyExpansion key)[r] = blockOfWords (roundWords key r) := by simp [keyExpansion]

theorem shiftRows_getElem (s : Block) (i : Nat) (h : i < 16) :
    (shiftRows s)[i] = s[i % 4 + 4 * ((i / 4 + i % 4) % 4)] := by simp [shiftRows]

theorem subBytes_getElem (s : Block) (i : Nat) (h : i < 16) :
    (subBytes s)[i] = sbox s[i] := by simp [subBytes]

end Sys2Proof.Machine
end

