-- ==== Sys2Proof/Laws/Engines.lean ====
section
/-! SUPPORT. The laws of the CMAC, CTR and frame engines: how long their results are and how the
blocks of a message lie in it. -/

namespace Sys2Proof.Machine

@[simp] theorem messageBlock_length (m : List Byte) (i : Nat) :
    (messageBlock m i).length = min 16 (m.length - 16 * (i - 1)) := by simp [messageBlock]

@[simp] theorem ctrBlockIndices_length (len : Nat) :
    (ctrBlockIndices len).length = (len + 15) / 16 := by simp [ctrBlockIndices]

@[simp] theorem ctrChunk_length (enc : Block → Block) (d : Byte) (a c : Word) (p : List Byte)
    (i : Nat) : (ctrChunk enc d a c p i).length = min 16 (p.length - 16 * (i - 1)) := by
  simp only [ctrChunk, xorBytes_length, messageBlock_length, Vector.length_toList]
  omega

/-- The bytes of the first n chunks together: 16 for each, cut at the end of the payload. -/
theorem chunks_length (enc : Block → Block) (d : Byte) (a c : Word) (p : List Byte) (n : Nat) :
    ((List.range' 1 n).flatMap (ctrChunk enc d a c p)).length = min (16 * n) p.length := by
  induction n with
  | zero => simp
  | succ n ih =>
    rw [List.range'_concat, List.flatMap_append, List.length_append, ih]
    simp only [List.flatMap_cons, List.flatMap_nil, List.append_nil, ctrChunk_length]
    omega

/-- The output of a transform is as long as its payload (R101). -/
@[simp] theorem transform_length (enc : Block → Block) (d : Byte) (a c : Word) (p : List Byte) :
    (transform enc d a c p).length = p.length := by
  rw [transform, ctrBlockIndices, chunks_length]; omega

@[simp] theorem frameHeader_length (mhdr : Byte) (a : Word) (fctrl : Byte) (f : BitVec 16) :
    (frameHeader mhdr a fctrl f).length = 8 := rfl

@[simp] theorem micBytes_length (tag : Block) : (micBytes tag).length = 4 := rfl

/-- A frame is 12 bytes longer than its payload (R107). -/
@[simp] theorem frameBytes_length (enc0 enc1 : Block → Block) (x : FrameInputs) :
    (frameBytes enc0 enc1 x).length = x.payload.length + 12 := by
  simp only [frameBytes, frameHeaderOf, frameCiphertext, List.length_append, frameHeader_length,
    transform_length, micBytes_length]
  omega

@[simp] theorem dataBytes_length (s : State) (n : Nat) : (s.dataBytes n).length = n := by
  simp [State.dataBytes]

@[simp] theorem payload_length (s : State) : s.payload.length = s.length := by
  simp [State.payload]

/-- Byte n of the operand of CMAC, CTR and BUILD is DATA[n]. -/
theorem payload_getElem (s : State) (n : Nat) (h : n < s.payload.length) :
    s.payload[n] = s.dataByte n := by simp [State.payload, State.dataBytes]

end Sys2Proof.Machine
end

