-- ==== Sys2Proof/Laws/Memory.lean ====
section
/-! SUPPORT. The laws of the byte store: reading after writing, and the canonical form kept by every
operation. -/

namespace Sys2Proof.Machine

@[simp] theorem Memory.read_nil (x : Nat) : Memory.read [] x = none := rfl

@[simp] theorem Memory.wf_nil : Memory.wf [] = true := rfl

@[simp] theorem Memory.inBuffers_nil : Memory.inBuffers [] = true := rfl

/-- A byte written is the byte read. -/
@[simp] theorem Memory.read_write_same (m : Memory) (x : Nat) (v : Byte) :
    (m.write x v).read x = some v := by
  induction m with
  | nil => simp [Memory.write, Memory.read]
  | cons c m ih =>
    obtain ⟨a, b⟩ := c
    simp only [Memory.write]
    split
    · simp [Memory.read]
    · split
      · simp [Memory.read]
      · simp [Memory.read, *]

/-- A write leaves every other address alone. -/
theorem Memory.read_write_other (m : Memory) (x y : Nat) (v : Byte) (h : y ≠ x) :
    (m.write x v).read y = m.read y := by
  induction m with
  | nil => simp [Memory.write, Memory.read, h]
  | cons c m ih =>
    obtain ⟨a, b⟩ := c
    simp only [Memory.write]
    split
    · simp [Memory.read, h]
    · split
      · next h1 h2 => subst h2; simp [Memory.read, h]
      · simp [Memory.read, ih]

theorem Memory.mem_write (m : Memory) (x : Nat) (v : Byte) (c : Host.Cell)
    (h : c ∈ m.write x v) : c = (x, v) ∨ c ∈ m := by
  induction m with
  | nil => simpa [Memory.write] using h
  | cons d m ih =>
    obtain ⟨a, b⟩ := d
    simp only [Memory.write] at h
    split at h
    · simpa using h
    · split at h
      · rcases List.mem_cons.1 h with h | h
        · exact .inl h
        · exact .inr (List.mem_cons_of_mem _ h)
      · rcases List.mem_cons.1 h with h | h
        · exact .inr (h ▸ List.mem_cons_self)
        · exact (ih h).imp id (List.mem_cons_of_mem _)

/-- A write keeps the canonical form. -/
theorem Memory.write_wf (m : Memory) (x : Nat) (v : Byte) (h : m.wf = true) :
    (m.write x v).wf = true := by
  induction m with
  | nil => rfl
  | cons d m ih =>
    obtain ⟨a, b⟩ := d
    simp only [Memory.wf, Bool.and_eq_true, List.all_eq_true, decide_eq_true_eq] at h
    simp only [Memory.write]
    split
    · next hx =>
      simp only [Memory.wf, Bool.and_eq_true, List.all_eq_true, decide_eq_true_eq, List.mem_cons]
      refine ⟨?_, h⟩
      rintro c (rfl | hc)
      · exact hx
      · exact lt_trans hx (h.1 c hc)
    · split
      · next hx => subst hx; simpa [Memory.wf] using h
      · next h1 h2 =>
        simp only [Memory.wf, Bool.and_eq_true, List.all_eq_true, decide_eq_true_eq]
        refine ⟨fun c hc => ?_, ih h.2⟩
        rcases Memory.mem_write m x v c hc with rfl | hc
        · exact lt_of_le_of_ne (not_lt.1 h1) (fun e => h2 e.symm)
        · exact h.1 c hc

/-- A write inside DATA or OUT keeps every listed address there. -/
theorem Memory.write_inBuffers (m : Memory) (x : Nat) (v : Byte) (h : m.inBuffers = true)
    (lo : 0x100 ≤ x) (hi : x < 0x300) : (m.write x v).inBuffers = true := by
  simp only [Memory.inBuffers, List.all_eq_true, Bool.and_eq_true, decide_eq_true_eq] at h ⊢
  intro c hc
  rcases Memory.mem_write m x v c hc with rfl | hc
  · exact ⟨lo, hi⟩
  · exact h c hc

theorem Memory.writeBytes_wf (m : Memory) (x : Nat) (bs : List Byte) (h : m.wf = true) :
    (m.writeBytes x bs).wf = true := by
  induction bs generalizing m x with
  | nil => exact h
  | cons b bs ih => exact ih _ _ (m.write_wf x b h)

theorem Memory.writeBytes_inBuffers (m : Memory) (x : Nat) (bs : List Byte)
    (h : m.inBuffers = true) (lo : 0x100 ≤ x) (hi : x + bs.length ≤ 0x300) :
    (m.writeBytes x bs).inBuffers = true := by
  induction bs generalizing m x with
  | nil => exact h
  | cons b bs ih =>
    simp only [List.length_cons] at hi
    exact ih _ _ (m.write_inBuffers x b h lo (by omega)) (by omega) (by omega)

/-- Outside the bytes written, every address reads as before. -/
theorem Memory.read_writeBytes_outside (m : Memory) (x y : Nat) (bs : List Byte)
    (h : y < x ∨ x + bs.length ≤ y) : (m.writeBytes x bs).read y = m.read y := by
  induction bs generalizing m x with
  | nil => rfl
  | cons b bs ih =>
    simp only [List.length_cons] at h
    exact (ih _ _ (by omega)).trans (m.read_write_other x y b (by omega))

/-- Byte n of the bytes written is read at its address. -/
theorem Memory.read_writeBytes_inside (m : Memory) (x n : Nat) (bs : List Byte)
    (h : n < bs.length) : (m.writeBytes x bs).read (x + n) = some bs[n] := by
  induction bs generalizing m x n with
  | nil => simp at h
  | cons b bs ih =>
    cases n with
    | zero =>
      exact (Memory.read_writeBytes_outside (m.write x b) (x + 1) x bs (.inl (by omega))).trans
        (by simp)
    | succ n =>
      have := ih (m.write x b) (x + 1) n (by simpa using h)
      simpa [Memory.writeBytes, Nat.add_assoc, Nat.add_comm 1 n] using this

/-- What a byte of a buffer reads as when the address is listed. -/
theorem State.byteAt_of_read (s : State) (x : Nat) (b : Byte) (h : s.mem.read x = some b) :
    s.byteAt x = b := by simp [State.byteAt, h]

/-- Two states with the same stored byte and the same reset number read the same byte. -/
theorem State.byteAt_congr (s t : State) (x : Nat) (h : s.mem.read x = t.mem.read x)
    (he : s.epoch = t.epoch) : s.byteAt x = t.byteAt x := by simp [State.byteAt, h, he]

end Sys2Proof.Machine
end

