-- ==== Sys2Proof/Laws/State.lean ====
section
/-! SUPPORT. The small lemmas of the state: one per field per named update, so that no proof unfolds a
record update. -/

namespace Sys2Proof.Machine

/-! ### lostWrite -/

@[simp] theorem lostWrite_events (s : State) :
    (s.lostWrite).events = s.events := rfl
@[simp] theorem lostWrite_presetn (s : State) :
    (s.lostWrite).presetn = s.presetn := rfl
@[simp] theorem lostWrite_prdata (s : State) :
    (s.lostWrite).prdata = s.prdata := rfl
@[simp] theorem lostWrite_draws (s : State) :
    (s.lostWrite).draws = s.draws := rfl
@[simp] theorem lostWrite_epoch (s : State) :
    (s.lostWrite).epoch = s.epoch := rfl
@[simp] theorem lostWrite_keylock (s : State) :
    (s.lostWrite).keylock = s.keylock := rfl
@[simp] theorem lostWrite_done (s : State) :
    (s.lostWrite).done = s.done := rfl
@[simp] theorem lostWrite_errcode (s : State) :
    (s.lostWrite).errcode = s.errcode := rfl
@[simp] theorem lostWrite_fcntWrap (s : State) :
    (s.lostWrite).fcntWrap = s.fcntWrap := rfl
@[simp] theorem lostWrite_wign (s : State) :
    (s.lostWrite).wign = true := rfl
@[simp] theorem lostWrite_inflight (s : State) :
    (s.lostWrite).inflight = s.inflight := rfl
@[simp] theorem lostWrite_len (s : State) :
    (s.lostWrite).len = s.len := rfl
@[simp] theorem lostWrite_frameLen (s : State) :
    (s.lostWrite).frameLen = s.frameLen := rfl
@[simp] theorem lostWrite_devaddr (s : State) :
    (s.lostWrite).devaddr = s.devaddr := rfl
@[simp] theorem lostWrite_fcnt (s : State) :
    (s.lostWrite).fcnt = s.fcnt := rfl
@[simp] theorem lostWrite_ctrFcnt (s : State) :
    (s.lostWrite).ctrFcnt = s.ctrFcnt := rfl
@[simp] theorem lostWrite_mhdr (s : State) :
    (s.lostWrite).mhdr = s.mhdr := rfl
@[simp] theorem lostWrite_fctrl (s : State) :
    (s.lostWrite).fctrl = s.fctrl := rfl
@[simp] theorem lostWrite_mic (s : State) :
    (s.lostWrite).mic = s.mic := rfl
@[simp] theorem lostWrite_slot0 (s : State) :
    (s.lostWrite).slot0 = s.slot0 := rfl
@[simp] theorem lostWrite_slot1 (s : State) :
    (s.lostWrite).slot1 = s.slot1 := rfl
@[simp] theorem lostWrite_blkin (s : State) :
    (s.lostWrite).blkin = s.blkin := rfl
@[simp] theorem lostWrite_blkout (s : State) :
    (s.lostWrite).blkout = s.blkout := rfl
@[simp] theorem lostWrite_mem (s : State) :
    (s.lostWrite).mem = s.mem := rfl
@[simp] theorem lostWrite_slot (s : State) (k : Slot) :
    (s.lostWrite).slot k = s.slot k := by cases k <;> rfl
@[simp] theorem lostWrite_length (s : State) :
    (s.lostWrite).length = s.length := rfl

/-! ### clearSticky -/

@[simp] theorem clearSticky_events (s : State) (v : Word) (strb : Strobe) :
    (s.clearSticky v strb).events = s.events := rfl
@[simp] theorem clearSticky_presetn (s : State) (v : Word) (strb : Strobe) :
    (s.clearSticky v strb).presetn = s.presetn := rfl
@[simp] theorem clearSticky_prdata (s : State) (v : Word) (strb : Strobe) :
    (s.clearSticky v strb).prdata = s.prdata := rfl
@[simp] theorem clearSticky_draws (s : State) (v : Word) (strb : Strobe) :
    (s.clearSticky v strb).draws = s.draws := rfl
@[simp] theorem clearSticky_epoch (s : State) (v : Word) (strb : Strobe) :
    (s.clearSticky v strb).epoch = s.epoch := rfl
@[simp] theorem clearSticky_keylock (s : State) (v : Word) (strb : Strobe) :
    (s.clearSticky v strb).keylock = s.keylock := rfl
@[simp] theorem clearSticky_done (s : State) (v : Word) (strb : Strobe) :
    (s.clearSticky v strb).done = s.done := rfl
@[simp] theorem clearSticky_errcode (s : State) (v : Word) (strb : Strobe) :
    (s.clearSticky v strb).errcode = s.errcode := rfl
@[simp] theorem clearSticky_fcntWrap (s : State) (v : Word) (strb : Strobe) :
    (s.clearSticky v strb).fcntWrap = (s.fcntWrap && !(strb.getLsbD 1 && v.getLsbD 12)) := rfl
@[simp] theorem clearSticky_wign (s : State) (v : Word) (strb : Strobe) :
    (s.clearSticky v strb).wign = (s.wign && !(strb.getLsbD 1 && v.getLsbD 13)) := rfl
@[simp] theorem clearSticky_inflight (s : State) (v : Word) (strb : Strobe) :
    (s.clearSticky v strb).inflight = s.inflight := rfl
@[simp] theorem clearSticky_len (s : State) (v : Word) (strb : Strobe) :
    (s.clearSticky v strb).len = s.len := rfl
@[simp] theorem clearSticky_frameLen (s : State) (v : Word) (strb : Strobe) :
    (s.clearSticky v strb).frameLen = s.frameLen := rfl
@[simp] theorem clearSticky_devaddr (s : State) (v : Word) (strb : Strobe) :
    (s.clearSticky v strb).devaddr = s.devaddr := rfl
@[simp] theorem clearSticky_fcnt (s : State) (v : Word) (strb : Strobe) :
    (s.clearSticky v strb).fcnt = s.fcnt := rfl
@[simp] theorem clearSticky_ctrFcnt (s : State) (v : Word) (strb : Strobe) :
    (s.clearSticky v strb).ctrFcnt = s.ctrFcnt := rfl
@[simp] theorem clearSticky_mhdr (s : State) (v : Word) (strb : Strobe) :
    (s.clearSticky v strb).mhdr = s.mhdr := rfl
@[simp] theorem clearSticky_fctrl (s : State) (v : Word) (strb : Strobe) :
    (s.clearSticky v strb).fctrl = s.fctrl := rfl
@[simp] theorem clearSticky_mic (s : State) (v : Word) (strb : Strobe) :
    (s.clearSticky v strb).mic = s.mic := rfl
@[simp] theorem clearSticky_slot0 (s : State) (v : Word) (strb : Strobe) :
    (s.clearSticky v strb).slot0 = s.slot0 := rfl
@[simp] theorem clearSticky_slot1 (s : State) (v : Word) (strb : Strobe) :
    (s.clearSticky v strb).slot1 = s.slot1 := rfl
@[simp] theorem clearSticky_blkin (s : State) (v : Word) (strb : Strobe) :
    (s.clearSticky v strb).blkin = s.blkin := rfl
@[simp] theorem clearSticky_blkout (s : State) (v : Word) (strb : Strobe) :
    (s.clearSticky v strb).blkout = s.blkout := rfl
@[simp] theorem clearSticky_mem (s : State) (v : Word) (strb : Strobe) :
    (s.clearSticky v strb).mem = s.mem := rfl
@[simp] theorem clearSticky_slot (s : State) (v : Word) (strb : Strobe) (k : Slot) :
    (s.clearSticky v strb).slot k = s.slot k := by cases k <;> rfl
@[simp] theorem clearSticky_length (s : State) (v : Word) (strb : Strobe) :
    (s.clearSticky v strb).length = s.length := rfl

/-! ### reject -/

@[simp] theorem reject_events (s : State) (c : ErrCode) :
    (s.reject c).events = s.events := rfl
@[simp] theorem reject_presetn (s : State) (c : ErrCode) :
    (s.reject c).presetn = s.presetn := rfl
@[simp] theorem reject_prdata (s : State) (c : ErrCode) :
    (s.reject c).prdata = s.prdata := rfl
@[simp] theorem reject_draws (s : State) (c : ErrCode) :
    (s.reject c).draws = s.draws := rfl
@[simp] theorem reject_epoch (s : State) (c : ErrCode) :
    (s.reject c).epoch = s.epoch := rfl
@[simp] theorem reject_keylock (s : State) (c : ErrCode) :
    (s.reject c).keylock = s.keylock := rfl
@[simp] theorem reject_done (s : State) (c : ErrCode) :
    (s.reject c).done = true := rfl
@[simp] theorem reject_errcode (s : State) (c : ErrCode) :
    (s.reject c).errcode = c := rfl
@[simp] theorem reject_fcntWrap (s : State) (c : ErrCode) :
    (s.reject c).fcntWrap = s.fcntWrap := rfl
@[simp] theorem reject_wign (s : State) (c : ErrCode) :
    (s.reject c).wign = s.wign := rfl
@[simp] theorem reject_inflight (s : State) (c : ErrCode) :
    (s.reject c).inflight = s.inflight := rfl
@[simp] theorem reject_len (s : State) (c : ErrCode) :
    (s.reject c).len = s.len := rfl
@[simp] theorem reject_frameLen (s : State) (c : ErrCode) :
    (s.reject c).frameLen = s.frameLen := rfl
@[simp] theorem reject_devaddr (s : State) (c : ErrCode) :
    (s.reject c).devaddr = s.devaddr := rfl
@[simp] theorem reject_fcnt (s : State) (c : ErrCode) :
    (s.reject c).fcnt = s.fcnt := rfl
@[simp] theorem reject_ctrFcnt (s : State) (c : ErrCode) :
    (s.reject c).ctrFcnt = s.ctrFcnt := rfl
@[simp] theorem reject_mhdr (s : State) (c : ErrCode) :
    (s.reject c).mhdr = s.mhdr := rfl
@[simp] theorem reject_fctrl (s : State) (c : ErrCode) :
    (s.reject c).fctrl = s.fctrl := rfl
@[simp] theorem reject_mic (s : State) (c : ErrCode) :
    (s.reject c).mic = s.mic := rfl
@[simp] theorem reject_slot0 (s : State) (c : ErrCode) :
    (s.reject c).slot0 = s.slot0 := rfl
@[simp] theorem reject_slot1 (s : State) (c : ErrCode) :
    (s.reject c).slot1 = s.slot1 := rfl
@[simp] theorem reject_blkin (s : State) (c : ErrCode) :
    (s.reject c).blkin = s.blkin := rfl
@[simp] theorem reject_blkout (s : State) (c : ErrCode) :
    (s.reject c).blkout = s.blkout := rfl
@[simp] theorem reject_mem (s : State) (c : ErrCode) :
    (s.reject c).mem = s.mem := rfl
@[simp] theorem reject_slot (s : State) (c : ErrCode) (k : Slot) :
    (s.reject c).slot k = s.slot k := by cases k <;> rfl
@[simp] theorem reject_length (s : State) (c : ErrCode) :
    (s.reject c).length = s.length := rfl

/-! ### accept -/

@[simp] theorem accept_events (s : State) (i : Instr) :
    (s.accept i).events = s.events := rfl
@[simp] theorem accept_presetn (s : State) (i : Instr) :
    (s.accept i).presetn = s.presetn := rfl
@[simp] theorem accept_prdata (s : State) (i : Instr) :
    (s.accept i).prdata = s.prdata := rfl
@[simp] theorem accept_draws (s : State) (i : Instr) :
    (s.accept i).draws = s.draws := rfl
@[simp] theorem accept_epoch (s : State) (i : Instr) :
    (s.accept i).epoch = s.epoch := rfl
@[simp] theorem accept_keylock (s : State) (i : Instr) :
    (s.accept i).keylock = s.keylock := rfl
@[simp] theorem accept_done (s : State) (i : Instr) :
    (s.accept i).done = false := rfl
@[simp] theorem accept_errcode (s : State) (i : Instr) :
    (s.accept i).errcode = .ok := rfl
@[simp] theorem accept_fcntWrap (s : State) (i : Instr) :
    (s.accept i).fcntWrap = s.fcntWrap := rfl
@[simp] theorem accept_wign (s : State) (i : Instr) :
    (s.accept i).wign = s.wign := rfl
@[simp] theorem accept_inflight (s : State) (i : Instr) :
    (s.accept i).inflight = some i := rfl
@[simp] theorem accept_len (s : State) (i : Instr) :
    (s.accept i).len = s.len := rfl
@[simp] theorem accept_frameLen (s : State) (i : Instr) :
    (s.accept i).frameLen = s.frameLen := rfl
@[simp] theorem accept_devaddr (s : State) (i : Instr) :
    (s.accept i).devaddr = s.devaddr := rfl
@[simp] theorem accept_fcnt (s : State) (i : Instr) :
    (s.accept i).fcnt = s.fcnt := rfl
@[simp] theorem accept_ctrFcnt (s : State) (i : Instr) :
    (s.accept i).ctrFcnt = s.ctrFcnt := rfl
@[simp] theorem accept_mhdr (s : State) (i : Instr) :
    (s.accept i).mhdr = s.mhdr := rfl
@[simp] theorem accept_fctrl (s : State) (i : Instr) :
    (s.accept i).fctrl = s.fctrl := rfl
@[simp] theorem accept_mic (s : State) (i : Instr) :
    (s.accept i).mic = s.mic := rfl
@[simp] theorem accept_slot0 (s : State) (i : Instr) :
    (s.accept i).slot0 = s.slot0 := rfl
@[simp] theorem accept_slot1 (s : State) (i : Instr) :
    (s.accept i).slot1 = s.slot1 := rfl
@[simp] theorem accept_blkin (s : State) (i : Instr) :
    (s.accept i).blkin = s.blkin := rfl
@[simp] theorem accept_blkout (s : State) (i : Instr) :
    (s.accept i).blkout = s.blkout := rfl
@[simp] theorem accept_mem (s : State) (i : Instr) :
    (s.accept i).mem = s.mem := rfl
@[simp] theorem accept_slot (s : State) (i : Instr) (k : Slot) :
    (s.accept i).slot k = s.slot k := by cases k <;> rfl
@[simp] theorem accept_length (s : State) (i : Instr) :
    (s.accept i).length = s.length := rfl

/-! ### finish -/

@[simp] theorem finish_events (s : State) :
    (s.finish).events = s.events := rfl
@[simp] theorem finish_presetn (s : State) :
    (s.finish).presetn = s.presetn := rfl
@[simp] theorem finish_prdata (s : State) :
    (s.finish).prdata = s.prdata := rfl
@[simp] theorem finish_draws (s : State) :
    (s.finish).draws = s.draws := rfl
@[simp] theorem finish_epoch (s : State) :
    (s.finish).epoch = s.epoch := rfl
@[simp] theorem finish_keylock (s : State) :
    (s.finish).keylock = s.keylock := rfl
@[simp] theorem finish_done (s : State) :
    (s.finish).done = true := rfl
@[simp] theorem finish_errcode (s : State) :
    (s.finish).errcode = .ok := rfl
@[simp] theorem finish_fcntWrap (s : State) :
    (s.finish).fcntWrap = s.fcntWrap := rfl
@[simp] theorem finish_wign (s : State) :
    (s.finish).wign = s.wign := rfl
@[simp] theorem finish_inflight (s : State) :
    (s.finish).inflight = none := rfl
@[simp] theorem finish_len (s : State) :
    (s.finish).len = s.len := rfl
@[simp] theorem finish_frameLen (s : State) :
    (s.finish).frameLen = s.frameLen := rfl
@[simp] theorem finish_devaddr (s : State) :
    (s.finish).devaddr = s.devaddr := rfl
@[simp] theorem finish_fcnt (s : State) :
    (s.finish).fcnt = s.fcnt := rfl
@[simp] theorem finish_ctrFcnt (s : State) :
    (s.finish).ctrFcnt = s.ctrFcnt := rfl
@[simp] theorem finish_mhdr (s : State) :
    (s.finish).mhdr = s.mhdr := rfl
@[simp] theorem finish_fctrl (s : State) :
    (s.finish).fctrl = s.fctrl := rfl
@[simp] theorem finish_mic (s : State) :
    (s.finish).mic = s.mic := rfl
@[simp] theorem finish_slot0 (s : State) :
    (s.finish).slot0 = s.slot0 := rfl
@[simp] theorem finish_slot1 (s : State) :
    (s.finish).slot1 = s.slot1 := rfl
@[simp] theorem finish_blkin (s : State) :
    (s.finish).blkin = s.blkin := rfl
@[simp] theorem finish_blkout (s : State) :
    (s.finish).blkout = s.blkout := rfl
@[simp] theorem finish_mem (s : State) :
    (s.finish).mem = s.mem := rfl
@[simp] theorem finish_slot (s : State) (k : Slot) :
    (s.finish).slot k = s.slot k := by cases k <;> rfl
@[simp] theorem finish_length (s : State) :
    (s.finish).length = s.length := rfl

/-! ### setBlkout -/

@[simp] theorem setBlkout_events (s : State) (b : Block) :
    (s.setBlkout b).events = s.events := rfl
@[simp] theorem setBlkout_presetn (s : State) (b : Block) :
    (s.setBlkout b).presetn = s.presetn := rfl
@[simp] theorem setBlkout_prdata (s : State) (b : Block) :
    (s.setBlkout b).prdata = s.prdata := rfl
@[simp] theorem setBlkout_draws (s : State) (b : Block) :
    (s.setBlkout b).draws = s.draws := rfl
@[simp] theorem setBlkout_epoch (s : State) (b : Block) :
    (s.setBlkout b).epoch = s.epoch := rfl
@[simp] theorem setBlkout_keylock (s : State) (b : Block) :
    (s.setBlkout b).keylock = s.keylock := rfl
@[simp] theorem setBlkout_done (s : State) (b : Block) :
    (s.setBlkout b).done = s.done := rfl
@[simp] theorem setBlkout_errcode (s : State) (b : Block) :
    (s.setBlkout b).errcode = s.errcode := rfl
@[simp] theorem setBlkout_fcntWrap (s : State) (b : Block) :
    (s.setBlkout b).fcntWrap = s.fcntWrap := rfl
@[simp] theorem setBlkout_wign (s : State) (b : Block) :
    (s.setBlkout b).wign = s.wign := rfl
@[simp] theorem setBlkout_inflight (s : State) (b : Block) :
    (s.setBlkout b).inflight = s.inflight := rfl
@[simp] theorem setBlkout_len (s : State) (b : Block) :
    (s.setBlkout b).len = s.len := rfl
@[simp] theorem setBlkout_frameLen (s : State) (b : Block) :
    (s.setBlkout b).frameLen = s.frameLen := rfl
@[simp] theorem setBlkout_devaddr (s : State) (b : Block) :
    (s.setBlkout b).devaddr = s.devaddr := rfl
@[simp] theorem setBlkout_fcnt (s : State) (b : Block) :
    (s.setBlkout b).fcnt = s.fcnt := rfl
@[simp] theorem setBlkout_ctrFcnt (s : State) (b : Block) :
    (s.setBlkout b).ctrFcnt = s.ctrFcnt := rfl
@[simp] theorem setBlkout_mhdr (s : State) (b : Block) :
    (s.setBlkout b).mhdr = s.mhdr := rfl
@[simp] theorem setBlkout_fctrl (s : State) (b : Block) :
    (s.setBlkout b).fctrl = s.fctrl := rfl
@[simp] theorem setBlkout_mic (s : State) (b : Block) :
    (s.setBlkout b).mic = s.mic := rfl
@[simp] theorem setBlkout_slot0 (s : State) (b : Block) :
    (s.setBlkout b).slot0 = s.slot0 := rfl
@[simp] theorem setBlkout_slot1 (s : State) (b : Block) :
    (s.setBlkout b).slot1 = s.slot1 := rfl
@[simp] theorem setBlkout_blkin (s : State) (b : Block) :
    (s.setBlkout b).blkin = s.blkin := rfl
@[simp] theorem setBlkout_blkout (s : State) (b : Block) :
    (s.setBlkout b).blkout = b := rfl
@[simp] theorem setBlkout_mem (s : State) (b : Block) :
    (s.setBlkout b).mem = s.mem := rfl
@[simp] theorem setBlkout_slot (s : State) (b : Block) (k : Slot) :
    (s.setBlkout b).slot k = s.slot k := by cases k <;> rfl
@[simp] theorem setBlkout_length (s : State) (b : Block) :
    (s.setBlkout b).length = s.length := rfl

/-! ### writeOut -/

@[simp] theorem writeOut_events (s : State) (bs : List Byte) :
    (s.writeOut bs).events = s.events := rfl
@[simp] theorem writeOut_presetn (s : State) (bs : List Byte) :
    (s.writeOut bs).presetn = s.presetn := rfl
@[simp] theorem writeOut_prdata (s : State) (bs : List Byte) :
    (s.writeOut bs).prdata = s.prdata := rfl
@[simp] theorem writeOut_draws (s : State) (bs : List Byte) :
    (s.writeOut bs).draws = s.draws := rfl
@[simp] theorem writeOut_epoch (s : State) (bs : List Byte) :
    (s.writeOut bs).epoch = s.epoch := rfl
@[simp] theorem writeOut_keylock (s : State) (bs : List Byte) :
    (s.writeOut bs).keylock = s.keylock := rfl
@[simp] theorem writeOut_done (s : State) (bs : List Byte) :
    (s.writeOut bs).done = s.done := rfl
@[simp] theorem writeOut_errcode (s : State) (bs : List Byte) :
    (s.writeOut bs).errcode = s.errcode := rfl
@[simp] theorem writeOut_fcntWrap (s : State) (bs : List Byte) :
    (s.writeOut bs).fcntWrap = s.fcntWrap := rfl
@[simp] theorem writeOut_wign (s : State) (bs : List Byte) :
    (s.writeOut bs).wign = s.wign := rfl
@[simp] theorem writeOut_inflight (s : State) (bs : List Byte) :
    (s.writeOut bs).inflight = s.inflight := rfl
@[simp] theorem writeOut_len (s : State) (bs : List Byte) :
    (s.writeOut bs).len = s.len := rfl
@[simp] theorem writeOut_frameLen (s : State) (bs : List Byte) :
    (s.writeOut bs).frameLen = s.frameLen := rfl
@[simp] theorem writeOut_devaddr (s : State) (bs : List Byte) :
    (s.writeOut bs).devaddr = s.devaddr := rfl
@[simp] theorem writeOut_fcnt (s : State) (bs : List Byte) :
    (s.writeOut bs).fcnt = s.fcnt := rfl
@[simp] theorem writeOut_ctrFcnt (s : State) (bs : List Byte) :
    (s.writeOut bs).ctrFcnt = s.ctrFcnt := rfl
@[simp] theorem writeOut_mhdr (s : State) (bs : List Byte) :
    (s.writeOut bs).mhdr = s.mhdr := rfl
@[simp] theorem writeOut_fctrl (s : State) (bs : List Byte) :
    (s.writeOut bs).fctrl = s.fctrl := rfl
@[simp] theorem writeOut_mic (s : State) (bs : List Byte) :
    (s.writeOut bs).mic = s.mic := rfl
@[simp] theorem writeOut_slot0 (s : State) (bs : List Byte) :
    (s.writeOut bs).slot0 = s.slot0 := rfl
@[simp] theorem writeOut_slot1 (s : State) (bs : List Byte) :
    (s.writeOut bs).slot1 = s.slot1 := rfl
@[simp] theorem writeOut_blkin (s : State) (bs : List Byte) :
    (s.writeOut bs).blkin = s.blkin := rfl
@[simp] theorem writeOut_blkout (s : State) (bs : List Byte) :
    (s.writeOut bs).blkout = s.blkout := rfl
@[simp] theorem writeOut_mem (s : State) (bs : List Byte) :
    (s.writeOut bs).mem = s.mem.writeBytes outBase bs := rfl
@[simp] theorem writeOut_slot (s : State) (bs : List Byte) (k : Slot) :
    (s.writeOut bs).slot k = s.slot k := by cases k <;> rfl
@[simp] theorem writeOut_length (s : State) (bs : List Byte) :
    (s.writeOut bs).length = s.length := rfl

/-! ### drawRead -/

@[simp] theorem drawRead_events (s : State) :
    (s.drawRead).events = s.events := rfl
@[simp] theorem drawRead_presetn (s : State) :
    (s.drawRead).presetn = s.presetn := rfl
@[simp] theorem drawRead_prdata (s : State) :
    (s.drawRead).prdata = Config.busDraw s.draws := rfl
@[simp] theorem drawRead_draws (s : State) :
    (s.drawRead).draws = s.draws + 1 := rfl
@[simp] theorem drawRead_epoch (s : State) :
    (s.drawRead).epoch = s.epoch := rfl
@[simp] theorem drawRead_keylock (s : State) :
    (s.drawRead).keylock = s.keylock := rfl
@[simp] theorem drawRead_done (s : State) :
    (s.drawRead).done = s.done := rfl
@[simp] theorem drawRead_errcode (s : State) :
    (s.drawRead).errcode = s.errcode := rfl
@[simp] theorem drawRead_fcntWrap (s : State) :
    (s.drawRead).fcntWrap = s.fcntWrap := rfl
@[simp] theorem drawRead_wign (s : State) :
    (s.drawRead).wign = s.wign := rfl
@[simp] theorem drawRead_inflight (s : State) :
    (s.drawRead).inflight = s.inflight := rfl
@[simp] theorem drawRead_len (s : State) :
    (s.drawRead).len = s.len := rfl
@[simp] theorem drawRead_frameLen (s : State) :
    (s.drawRead).frameLen = s.frameLen := rfl
@[simp] theorem drawRead_devaddr (s : State) :
    (s.drawRead).devaddr = s.devaddr := rfl
@[simp] theorem drawRead_fcnt (s : State) :
    (s.drawRead).fcnt = s.fcnt := rfl
@[simp] theorem drawRead_ctrFcnt (s : State) :
    (s.drawRead).ctrFcnt = s.ctrFcnt := rfl
@[simp] theorem drawRead_mhdr (s : State) :
    (s.drawRead).mhdr = s.mhdr := rfl
@[simp] theorem drawRead_fctrl (s : State) :
    (s.drawRead).fctrl = s.fctrl := rfl
@[simp] theorem drawRead_mic (s : State) :
    (s.drawRead).mic = s.mic := rfl
@[simp] theorem drawRead_slot0 (s : State) :
    (s.drawRead).slot0 = s.slot0 := rfl
@[simp] theorem drawRead_slot1 (s : State) :
    (s.drawRead).slot1 = s.slot1 := rfl
@[simp] theorem drawRead_blkin (s : State) :
    (s.drawRead).blkin = s.blkin := rfl
@[simp] theorem drawRead_blkout (s : State) :
    (s.drawRead).blkout = s.blkout := rfl
@[simp] theorem drawRead_mem (s : State) :
    (s.drawRead).mem = s.mem := rfl
@[simp] theorem drawRead_slot (s : State) (k : Slot) :
    (s.drawRead).slot k = s.slot k := by cases k <;> rfl
@[simp] theorem drawRead_length (s : State) :
    (s.drawRead).length = s.length := rfl

/-! ### setSlot -/

@[simp] theorem setSlot_events (s : State) (k : Slot) (v : KeySlot) :
    (s.setSlot k v).events = s.events := by cases k <;> rfl
@[simp] theorem setSlot_presetn (s : State) (k : Slot) (v : KeySlot) :
    (s.setSlot k v).presetn = s.presetn := by cases k <;> rfl
@[simp] theorem setSlot_prdata (s : State) (k : Slot) (v : KeySlot) :
    (s.setSlot k v).prdata = s.prdata := by cases k <;> rfl
@[simp] theorem setSlot_draws (s : State) (k : Slot) (v : KeySlot) :
    (s.setSlot k v).draws = s.draws := by cases k <;> rfl
@[simp] theorem setSlot_epoch (s : State) (k : Slot) (v : KeySlot) :
    (s.setSlot k v).epoch = s.epoch := by cases k <;> rfl
@[simp] theorem setSlot_keylock (s : State) (k : Slot) (v : KeySlot) :
    (s.setSlot k v).keylock = s.keylock := by cases k <;> rfl
@[simp] theorem setSlot_done (s : State) (k : Slot) (v : KeySlot) :
    (s.setSlot k v).done = s.done := by cases k <;> rfl
@[simp] theorem setSlot_errcode (s : State) (k : Slot) (v : KeySlot) :
    (s.setSlot k v).errcode = s.errcode := by cases k <;> rfl
@[simp] theorem setSlot_fcntWrap (s : State) (k : Slot) (v : KeySlot) :
    (s.setSlot k v).fcntWrap = s.fcntWrap := by cases k <;> rfl
@[simp] theorem setSlot_wign (s : State) (k : Slot) (v : KeySlot) :
    (s.setSlot k v).wign = s.wign := by cases k <;> rfl
@[simp] theorem setSlot_inflight (s : State) (k : Slot) (v : KeySlot) :
    (s.setSlot k v).inflight = s.inflight := by cases k <;> rfl
@[simp] theorem setSlot_len (s : State) (k : Slot) (v : KeySlot) :
    (s.setSlot k v).len = s.len := by cases k <;> rfl
@[simp] theorem setSlot_frameLen (s : State) (k : Slot) (v : KeySlot) :
    (s.setSlot k v).frameLen = s.frameLen := by cases k <;> rfl
@[simp] theorem setSlot_devaddr (s : State) (k : Slot) (v : KeySlot) :
    (s.setSlot k v).devaddr = s.devaddr := by cases k <;> rfl
@[simp] theorem setSlot_fcnt (s : State) (k : Slot) (v : KeySlot) :
    (s.setSlot k v).fcnt = s.fcnt := by cases k <;> rfl
@[simp] theorem setSlot_ctrFcnt (s : State) (k : Slot) (v : KeySlot) :
    (s.setSlot k v).ctrFcnt = s.ctrFcnt := by cases k <;> rfl
@[simp] theorem setSlot_mhdr (s : State) (k : Slot) (v : KeySlot) :
    (s.setSlot k v).mhdr = s.mhdr := by cases k <;> rfl
@[simp] theorem setSlot_fctrl (s : State) (k : Slot) (v : KeySlot) :
    (s.setSlot k v).fctrl = s.fctrl := by cases k <;> rfl
@[simp] theorem setSlot_mic (s : State) (k : Slot) (v : KeySlot) :
    (s.setSlot k v).mic = s.mic := by cases k <;> rfl
@[simp] theorem setSlot_blkin (s : State) (k : Slot) (v : KeySlot) :
    (s.setSlot k v).blkin = s.blkin := by cases k <;> rfl
@[simp] theorem setSlot_blkout (s : State) (k : Slot) (v : KeySlot) :
    (s.setSlot k v).blkout = s.blkout := by cases k <;> rfl
@[simp] theorem setSlot_mem (s : State) (k : Slot) (v : KeySlot) :
    (s.setSlot k v).mem = s.mem := by cases k <;> rfl
@[simp] theorem setSlot_length (s : State) (k : Slot) (v : KeySlot) :
    (s.setSlot k v).length = s.length := by cases k <;> rfl
@[simp] theorem slot_setSlot_same (s : State) (k : Slot) (v : KeySlot) :
    (s.setSlot k v).slot k = v := by cases k <;> rfl
theorem slot_setSlot_other (s : State) (k j : Slot) (v : KeySlot) (h : j ≠ k) :
    (s.setSlot k v).slot j = s.slot j := by
  cases k <;> cases j <;> first | rfl | exact absurd rfl h
@[simp] theorem slot_slot0 (s : State) : s.slot .slot0 = s.slot0 := rfl
@[simp] theorem slot_slot1 (s : State) : s.slot .slot1 = s.slot1 := rfl

/-! ### release -/

@[simp] theorem release_events (s : State) :
    (s.release).events = s.events := rfl
@[simp] theorem release_presetn (s : State) :
    (s.release).presetn = State.reset.presetn := rfl
@[simp] theorem release_prdata (s : State) :
    (s.release).prdata = s.prdata := rfl
@[simp] theorem release_draws (s : State) :
    (s.release).draws = s.draws := rfl
@[simp] theorem release_epoch (s : State) :
    (s.release).epoch = s.epoch + 1 := rfl
@[simp] theorem release_keylock (s : State) :
    (s.release).keylock = State.reset.keylock := rfl
@[simp] theorem release_done (s : State) :
    (s.release).done = State.reset.done := rfl
@[simp] theorem release_errcode (s : State) :
    (s.release).errcode = State.reset.errcode := rfl
@[simp] theorem release_fcntWrap (s : State) :
    (s.release).fcntWrap = State.reset.fcntWrap := rfl
@[simp] theorem release_wign (s : State) :
    (s.release).wign = State.reset.wign := rfl
@[simp] theorem release_inflight (s : State) :
    (s.release).inflight = State.reset.inflight := rfl
@[simp] theorem release_len (s : State) :
    (s.release).len = State.reset.len := rfl
@[simp] theorem release_frameLen (s : State) :
    (s.release).frameLen = State.reset.frameLen := rfl
@[simp] theorem release_devaddr (s : State) :
    (s.release).devaddr = State.reset.devaddr := rfl
@[simp] theorem release_fcnt (s : State) :
    (s.release).fcnt = State.reset.fcnt := rfl
@[simp] theorem release_ctrFcnt (s : State) :
    (s.release).ctrFcnt = State.reset.ctrFcnt := rfl
@[simp] theorem release_mhdr (s : State) :
    (s.release).mhdr = State.reset.mhdr := rfl
@[simp] theorem release_fctrl (s : State) :
    (s.release).fctrl = State.reset.fctrl := rfl
@[simp] theorem release_mic (s : State) :
    (s.release).mic = State.reset.mic := rfl
@[simp] theorem release_slot0 (s : State) :
    (s.release).slot0 = State.reset.slot0 := rfl
@[simp] theorem release_slot1 (s : State) :
    (s.release).slot1 = State.reset.slot1 := rfl
@[simp] theorem release_blkin (s : State) :
    (s.release).blkin = State.reset.blkin := rfl
@[simp] theorem release_blkout (s : State) :
    (s.release).blkout = State.reset.blkout := rfl
@[simp] theorem release_mem (s : State) :
    (s.release).mem = State.reset.mem := rfl

end Sys2Proof.Machine
end

