-- ==== Sys2Proof/Laws/Results.lean ====
section
/-! SUPPORT. What the result of each command does to each field of the state, so that no proof unfolds a
result (and no unifier the cipher in it). -/

namespace Sys2Proof.Machine

/-! ### nopResult -/

@[simp] theorem nopResult_events (s : State) :
    (nopResult s).events = s.events := rfl
@[simp] theorem nopResult_presetn (s : State) :
    (nopResult s).presetn = s.presetn := rfl
@[simp] theorem nopResult_prdata (s : State) :
    (nopResult s).prdata = s.prdata := rfl
@[simp] theorem nopResult_draws (s : State) :
    (nopResult s).draws = s.draws := rfl
@[simp] theorem nopResult_epoch (s : State) :
    (nopResult s).epoch = s.epoch := rfl
@[simp] theorem nopResult_keylock (s : State) :
    (nopResult s).keylock = s.keylock := rfl
@[simp] theorem nopResult_done (s : State) :
    (nopResult s).done = s.done := rfl
@[simp] theorem nopResult_errcode (s : State) :
    (nopResult s).errcode = s.errcode := rfl
@[simp] theorem nopResult_fcntWrap (s : State) :
    (nopResult s).fcntWrap = s.fcntWrap := rfl
@[simp] theorem nopResult_wign (s : State) :
    (nopResult s).wign = s.wign := rfl
@[simp] theorem nopResult_inflight (s : State) :
    (nopResult s).inflight = s.inflight := rfl
@[simp] theorem nopResult_len (s : State) :
    (nopResult s).len = s.len := rfl
@[simp] theorem nopResult_frameLen (s : State) :
    (nopResult s).frameLen = s.frameLen := rfl
@[simp] theorem nopResult_devaddr (s : State) :
    (nopResult s).devaddr = s.devaddr := rfl
@[simp] theorem nopResult_fcnt (s : State) :
    (nopResult s).fcnt = s.fcnt := rfl
@[simp] theorem nopResult_ctrFcnt (s : State) :
    (nopResult s).ctrFcnt = s.ctrFcnt := rfl
@[simp] theorem nopResult_mhdr (s : State) :
    (nopResult s).mhdr = s.mhdr := rfl
@[simp] theorem nopResult_fctrl (s : State) :
    (nopResult s).fctrl = s.fctrl := rfl
@[simp] theorem nopResult_mic (s : State) :
    (nopResult s).mic = s.mic := rfl
@[simp] theorem nopResult_slot0 (s : State) :
    (nopResult s).slot0 = s.slot0 := rfl
@[simp] theorem nopResult_slot1 (s : State) :
    (nopResult s).slot1 = s.slot1 := rfl
@[simp] theorem nopResult_blkin (s : State) :
    (nopResult s).blkin = s.blkin := rfl
@[simp] theorem nopResult_blkout (s : State) :
    (nopResult s).blkout = s.blkout := rfl
@[simp] theorem nopResult_mem (s : State) :
    (nopResult s).mem = s.mem := rfl
@[simp] theorem nopResult_slot (s : State) (j : Slot) :
    (nopResult s).slot j = s.slot j := rfl

/-! ### keyexpResult -/

@[simp] theorem keyexpResult_events (k : Slot) (s : State) :
    (keyexpResult k s).events = s.events := setSlot_events _ _ _
@[simp] theorem keyexpResult_presetn (k : Slot) (s : State) :
    (keyexpResult k s).presetn = s.presetn := setSlot_presetn _ _ _
@[simp] theorem keyexpResult_prdata (k : Slot) (s : State) :
    (keyexpResult k s).prdata = s.prdata := setSlot_prdata _ _ _
@[simp] theorem keyexpResult_draws (k : Slot) (s : State) :
    (keyexpResult k s).draws = s.draws := setSlot_draws _ _ _
@[simp] theorem keyexpResult_epoch (k : Slot) (s : State) :
    (keyexpResult k s).epoch = s.epoch := setSlot_epoch _ _ _
@[simp] theorem keyexpResult_keylock (k : Slot) (s : State) :
    (keyexpResult k s).keylock = s.keylock := setSlot_keylock _ _ _
@[simp] theorem keyexpResult_done (k : Slot) (s : State) :
    (keyexpResult k s).done = s.done := setSlot_done _ _ _
@[simp] theorem keyexpResult_errcode (k : Slot) (s : State) :
    (keyexpResult k s).errcode = s.errcode := setSlot_errcode _ _ _
@[simp] theorem keyexpResult_fcntWrap (k : Slot) (s : State) :
    (keyexpResult k s).fcntWrap = s.fcntWrap := setSlot_fcntWrap _ _ _
@[simp] theorem keyexpResult_wign (k : Slot) (s : State) :
    (keyexpResult k s).wign = s.wign := setSlot_wign _ _ _
@[simp] theorem keyexpResult_inflight (k : Slot) (s : State) :
    (keyexpResult k s).inflight = s.inflight := setSlot_inflight _ _ _
@[simp] theorem keyexpResult_len (k : Slot) (s : State) :
    (keyexpResult k s).len = s.len := setSlot_len _ _ _
@[simp] theorem keyexpResult_frameLen (k : Slot) (s : State) :
    (keyexpResult k s).frameLen = s.frameLen := setSlot_frameLen _ _ _
@[simp] theorem keyexpResult_devaddr (k : Slot) (s : State) :
    (keyexpResult k s).devaddr = s.devaddr := setSlot_devaddr _ _ _
@[simp] theorem keyexpResult_fcnt (k : Slot) (s : State) :
    (keyexpResult k s).fcnt = s.fcnt := setSlot_fcnt _ _ _
@[simp] theorem keyexpResult_ctrFcnt (k : Slot) (s : State) :
    (keyexpResult k s).ctrFcnt = s.ctrFcnt := setSlot_ctrFcnt _ _ _
@[simp] theorem keyexpResult_mhdr (k : Slot) (s : State) :
    (keyexpResult k s).mhdr = s.mhdr := setSlot_mhdr _ _ _
@[simp] theorem keyexpResult_fctrl (k : Slot) (s : State) :
    (keyexpResult k s).fctrl = s.fctrl := setSlot_fctrl _ _ _
@[simp] theorem keyexpResult_mic (k : Slot) (s : State) :
    (keyexpResult k s).mic = s.mic := setSlot_mic _ _ _
@[simp] theorem keyexpResult_blkin (k : Slot) (s : State) :
    (keyexpResult k s).blkin = s.blkin := setSlot_blkin _ _ _
@[simp] theorem keyexpResult_blkout (k : Slot) (s : State) :
    (keyexpResult k s).blkout = s.blkout := setSlot_blkout _ _ _
@[simp] theorem keyexpResult_mem (k : Slot) (s : State) :
    (keyexpResult k s).mem = s.mem := setSlot_mem _ _ _

/-! ### encblkResult -/

@[simp] theorem encblkResult_events (k : Slot) (s : State) :
    (encblkResult k s).events = s.events := setBlkout_events _ _
@[simp] theorem encblkResult_presetn (k : Slot) (s : State) :
    (encblkResult k s).presetn = s.presetn := setBlkout_presetn _ _
@[simp] theorem encblkResult_prdata (k : Slot) (s : State) :
    (encblkResult k s).prdata = s.prdata := setBlkout_prdata _ _
@[simp] theorem encblkResult_draws (k : Slot) (s : State) :
    (encblkResult k s).draws = s.draws := setBlkout_draws _ _
@[simp] theorem encblkResult_epoch (k : Slot) (s : State) :
    (encblkResult k s).epoch = s.epoch := setBlkout_epoch _ _
@[simp] theorem encblkResult_keylock (k : Slot) (s : State) :
    (encblkResult k s).keylock = s.keylock := setBlkout_keylock _ _
@[simp] theorem encblkResult_done (k : Slot) (s : State) :
    (encblkResult k s).done = s.done := setBlkout_done _ _
@[simp] theorem encblkResult_errcode (k : Slot) (s : State) :
    (encblkResult k s).errcode = s.errcode := setBlkout_errcode _ _
@[simp] theorem encblkResult_fcntWrap (k : Slot) (s : State) :
    (encblkResult k s).fcntWrap = s.fcntWrap := setBlkout_fcntWrap _ _
@[simp] theorem encblkResult_wign (k : Slot) (s : State) :
    (encblkResult k s).wign = s.wign := setBlkout_wign _ _
@[simp] theorem encblkResult_inflight (k : Slot) (s : State) :
    (encblkResult k s).inflight = s.inflight := setBlkout_inflight _ _
@[simp] theorem encblkResult_len (k : Slot) (s : State) :
    (encblkResult k s).len = s.len := setBlkout_len _ _
@[simp] theorem encblkResult_frameLen (k : Slot) (s : State) :
    (encblkResult k s).frameLen = s.frameLen := setBlkout_frameLen _ _
@[simp] theorem encblkResult_devaddr (k : Slot) (s : State) :
    (encblkResult k s).devaddr = s.devaddr := setBlkout_devaddr _ _
@[simp] theorem encblkResult_fcnt (k : Slot) (s : State) :
    (encblkResult k s).fcnt = s.fcnt := setBlkout_fcnt _ _
@[simp] theorem encblkResult_ctrFcnt (k : Slot) (s : State) :
    (encblkResult k s).ctrFcnt = s.ctrFcnt := setBlkout_ctrFcnt _ _
@[simp] theorem encblkResult_mhdr (k : Slot) (s : State) :
    (encblkResult k s).mhdr = s.mhdr := setBlkout_mhdr _ _
@[simp] theorem encblkResult_fctrl (k : Slot) (s : State) :
    (encblkResult k s).fctrl = s.fctrl := setBlkout_fctrl _ _
@[simp] theorem encblkResult_mic (k : Slot) (s : State) :
    (encblkResult k s).mic = s.mic := setBlkout_mic _ _
@[simp] theorem encblkResult_slot0 (k : Slot) (s : State) :
    (encblkResult k s).slot0 = s.slot0 := setBlkout_slot0 _ _
@[simp] theorem encblkResult_slot1 (k : Slot) (s : State) :
    (encblkResult k s).slot1 = s.slot1 := setBlkout_slot1 _ _
@[simp] theorem encblkResult_blkin (k : Slot) (s : State) :
    (encblkResult k s).blkin = s.blkin := setBlkout_blkin _ _
@[simp] theorem encblkResult_mem (k : Slot) (s : State) :
    (encblkResult k s).mem = s.mem := setBlkout_mem _ _
@[simp] theorem encblkResult_slot (k : Slot) (s : State) (j : Slot) :
    (encblkResult k s).slot j = s.slot j := by cases j <;> simp

/-! ### cmacResult -/

@[simp] theorem cmacResult_events (k : Slot) (s : State) :
    (cmacResult k s).events = s.events := setBlkout_events _ _
@[simp] theorem cmacResult_presetn (k : Slot) (s : State) :
    (cmacResult k s).presetn = s.presetn := setBlkout_presetn _ _
@[simp] theorem cmacResult_prdata (k : Slot) (s : State) :
    (cmacResult k s).prdata = s.prdata := setBlkout_prdata _ _
@[simp] theorem cmacResult_draws (k : Slot) (s : State) :
    (cmacResult k s).draws = s.draws := setBlkout_draws _ _
@[simp] theorem cmacResult_epoch (k : Slot) (s : State) :
    (cmacResult k s).epoch = s.epoch := setBlkout_epoch _ _
@[simp] theorem cmacResult_keylock (k : Slot) (s : State) :
    (cmacResult k s).keylock = s.keylock := setBlkout_keylock _ _
@[simp] theorem cmacResult_done (k : Slot) (s : State) :
    (cmacResult k s).done = s.done := setBlkout_done _ _
@[simp] theorem cmacResult_errcode (k : Slot) (s : State) :
    (cmacResult k s).errcode = s.errcode := setBlkout_errcode _ _
@[simp] theorem cmacResult_fcntWrap (k : Slot) (s : State) :
    (cmacResult k s).fcntWrap = s.fcntWrap := setBlkout_fcntWrap _ _
@[simp] theorem cmacResult_wign (k : Slot) (s : State) :
    (cmacResult k s).wign = s.wign := setBlkout_wign _ _
@[simp] theorem cmacResult_inflight (k : Slot) (s : State) :
    (cmacResult k s).inflight = s.inflight := setBlkout_inflight _ _
@[simp] theorem cmacResult_len (k : Slot) (s : State) :
    (cmacResult k s).len = s.len := setBlkout_len _ _
@[simp] theorem cmacResult_frameLen (k : Slot) (s : State) :
    (cmacResult k s).frameLen = s.frameLen := setBlkout_frameLen _ _
@[simp] theorem cmacResult_devaddr (k : Slot) (s : State) :
    (cmacResult k s).devaddr = s.devaddr := setBlkout_devaddr _ _
@[simp] theorem cmacResult_fcnt (k : Slot) (s : State) :
    (cmacResult k s).fcnt = s.fcnt := setBlkout_fcnt _ _
@[simp] theorem cmacResult_ctrFcnt (k : Slot) (s : State) :
    (cmacResult k s).ctrFcnt = s.ctrFcnt := setBlkout_ctrFcnt _ _
@[simp] theorem cmacResult_mhdr (k : Slot) (s : State) :
    (cmacResult k s).mhdr = s.mhdr := setBlkout_mhdr _ _
@[simp] theorem cmacResult_fctrl (k : Slot) (s : State) :
    (cmacResult k s).fctrl = s.fctrl := setBlkout_fctrl _ _
@[simp] theorem cmacResult_mic (k : Slot) (s : State) :
    (cmacResult k s).mic = s.mic := setBlkout_mic _ _
@[simp] theorem cmacResult_slot0 (k : Slot) (s : State) :
    (cmacResult k s).slot0 = s.slot0 := setBlkout_slot0 _ _
@[simp] theorem cmacResult_slot1 (k : Slot) (s : State) :
    (cmacResult k s).slot1 = s.slot1 := setBlkout_slot1 _ _
@[simp] theorem cmacResult_blkin (k : Slot) (s : State) :
    (cmacResult k s).blkin = s.blkin := setBlkout_blkin _ _
@[simp] theorem cmacResult_mem (k : Slot) (s : State) :
    (cmacResult k s).mem = s.mem := setBlkout_mem _ _
@[simp] theorem cmacResult_slot (k : Slot) (s : State) (j : Slot) :
    (cmacResult k s).slot j = s.slot j := by cases j <;> simp

/-! ### ctrResult -/

@[simp] theorem ctrResult_events (k : Slot) (d : Byte) (s : State) :
    (ctrResult k d s).events = s.events := writeOut_events _ _
@[simp] theorem ctrResult_presetn (k : Slot) (d : Byte) (s : State) :
    (ctrResult k d s).presetn = s.presetn := writeOut_presetn _ _
@[simp] theorem ctrResult_prdata (k : Slot) (d : Byte) (s : State) :
    (ctrResult k d s).prdata = s.prdata := writeOut_prdata _ _
@[simp] theorem ctrResult_draws (k : Slot) (d : Byte) (s : State) :
    (ctrResult k d s).draws = s.draws := writeOut_draws _ _
@[simp] theorem ctrResult_epoch (k : Slot) (d : Byte) (s : State) :
    (ctrResult k d s).epoch = s.epoch := writeOut_epoch _ _
@[simp] theorem ctrResult_keylock (k : Slot) (d : Byte) (s : State) :
    (ctrResult k d s).keylock = s.keylock := writeOut_keylock _ _
@[simp] theorem ctrResult_done (k : Slot) (d : Byte) (s : State) :
    (ctrResult k d s).done = s.done := writeOut_done _ _
@[simp] theorem ctrResult_errcode (k : Slot) (d : Byte) (s : State) :
    (ctrResult k d s).errcode = s.errcode := writeOut_errcode _ _
@[simp] theorem ctrResult_fcntWrap (k : Slot) (d : Byte) (s : State) :
    (ctrResult k d s).fcntWrap = s.fcntWrap := writeOut_fcntWrap _ _
@[simp] theorem ctrResult_wign (k : Slot) (d : Byte) (s : State) :
    (ctrResult k d s).wign = s.wign := writeOut_wign _ _
@[simp] theorem ctrResult_inflight (k : Slot) (d : Byte) (s : State) :
    (ctrResult k d s).inflight = s.inflight := writeOut_inflight _ _
@[simp] theorem ctrResult_len (k : Slot) (d : Byte) (s : State) :
    (ctrResult k d s).len = s.len := writeOut_len _ _
@[simp] theorem ctrResult_frameLen (k : Slot) (d : Byte) (s : State) :
    (ctrResult k d s).frameLen = s.frameLen := writeOut_frameLen _ _
@[simp] theorem ctrResult_devaddr (k : Slot) (d : Byte) (s : State) :
    (ctrResult k d s).devaddr = s.devaddr := writeOut_devaddr _ _
@[simp] theorem ctrResult_fcnt (k : Slot) (d : Byte) (s : State) :
    (ctrResult k d s).fcnt = s.fcnt := writeOut_fcnt _ _
@[simp] theorem ctrResult_ctrFcnt (k : Slot) (d : Byte) (s : State) :
    (ctrResult k d s).ctrFcnt = s.ctrFcnt := writeOut_ctrFcnt _ _
@[simp] theorem ctrResult_mhdr (k : Slot) (d : Byte) (s : State) :
    (ctrResult k d s).mhdr = s.mhdr := writeOut_mhdr _ _
@[simp] theorem ctrResult_fctrl (k : Slot) (d : Byte) (s : State) :
    (ctrResult k d s).fctrl = s.fctrl := writeOut_fctrl _ _
@[simp] theorem ctrResult_mic (k : Slot) (d : Byte) (s : State) :
    (ctrResult k d s).mic = s.mic := writeOut_mic _ _
@[simp] theorem ctrResult_slot0 (k : Slot) (d : Byte) (s : State) :
    (ctrResult k d s).slot0 = s.slot0 := writeOut_slot0 _ _
@[simp] theorem ctrResult_slot1 (k : Slot) (d : Byte) (s : State) :
    (ctrResult k d s).slot1 = s.slot1 := writeOut_slot1 _ _
@[simp] theorem ctrResult_blkin (k : Slot) (d : Byte) (s : State) :
    (ctrResult k d s).blkin = s.blkin := writeOut_blkin _ _
@[simp] theorem ctrResult_blkout (k : Slot) (d : Byte) (s : State) :
    (ctrResult k d s).blkout = s.blkout := writeOut_blkout _ _
@[simp] theorem ctrResult_slot (k : Slot) (d : Byte) (s : State) (j : Slot) :
    (ctrResult k d s).slot j = s.slot j := by cases j <;> simp

/-! ### buildResult -/

@[simp] theorem buildResult_events (s : State) :
    (buildResult s).events = s.events := by
  unfold buildResult; dsimp only [writeOut_events]
@[simp] theorem buildResult_presetn (s : State) :
    (buildResult s).presetn = s.presetn := by
  unfold buildResult; dsimp only [writeOut_presetn]
@[simp] theorem buildResult_prdata (s : State) :
    (buildResult s).prdata = s.prdata := by
  unfold buildResult; dsimp only [writeOut_prdata]
@[simp] theorem buildResult_draws (s : State) :
    (buildResult s).draws = s.draws := by
  unfold buildResult; dsimp only [writeOut_draws]
@[simp] theorem buildResult_epoch (s : State) :
    (buildResult s).epoch = s.epoch := by
  unfold buildResult; dsimp only [writeOut_epoch]
@[simp] theorem buildResult_keylock (s : State) :
    (buildResult s).keylock = s.keylock := by
  unfold buildResult; dsimp only [writeOut_keylock]
@[simp] theorem buildResult_done (s : State) :
    (buildResult s).done = s.done := by
  unfold buildResult; dsimp only [writeOut_done]
@[simp] theorem buildResult_errcode (s : State) :
    (buildResult s).errcode = s.errcode := by
  unfold buildResult; dsimp only [writeOut_errcode]
@[simp] theorem buildResult_fcntWrap (s : State) :
    (buildResult s).fcntWrap = s.fcntWrap := by
  unfold buildResult; dsimp only [writeOut_fcntWrap]
@[simp] theorem buildResult_wign (s : State) :
    (buildResult s).wign = s.wign := by
  unfold buildResult; dsimp only [writeOut_wign]
@[simp] theorem buildResult_inflight (s : State) :
    (buildResult s).inflight = s.inflight := by
  unfold buildResult; dsimp only [writeOut_inflight]
@[simp] theorem buildResult_len (s : State) :
    (buildResult s).len = s.len := by
  unfold buildResult; dsimp only [writeOut_len]
@[simp] theorem buildResult_devaddr (s : State) :
    (buildResult s).devaddr = s.devaddr := by
  unfold buildResult; dsimp only [writeOut_devaddr]
@[simp] theorem buildResult_fcnt (s : State) :
    (buildResult s).fcnt = s.fcnt := by
  unfold buildResult; dsimp only [writeOut_fcnt]
@[simp] theorem buildResult_ctrFcnt (s : State) :
    (buildResult s).ctrFcnt = s.ctrFcnt := by
  unfold buildResult; dsimp only [writeOut_ctrFcnt]
@[simp] theorem buildResult_mhdr (s : State) :
    (buildResult s).mhdr = s.mhdr := by
  unfold buildResult; dsimp only [writeOut_mhdr]
@[simp] theorem buildResult_fctrl (s : State) :
    (buildResult s).fctrl = s.fctrl := by
  unfold buildResult; dsimp only [writeOut_fctrl]
@[simp] theorem buildResult_slot0 (s : State) :
    (buildResult s).slot0 = s.slot0 := by
  unfold buildResult; dsimp only [writeOut_slot0]
@[simp] theorem buildResult_slot1 (s : State) :
    (buildResult s).slot1 = s.slot1 := by
  unfold buildResult; dsimp only [writeOut_slot1]
@[simp] theorem buildResult_blkin (s : State) :
    (buildResult s).blkin = s.blkin := by
  unfold buildResult; dsimp only [writeOut_blkin]
@[simp] theorem buildResult_blkout (s : State) :
    (buildResult s).blkout = s.blkout := by
  unfold buildResult; dsimp only [writeOut_blkout]
@[simp] theorem buildResult_slot (s : State) (j : Slot) :
    (buildResult s).slot j = s.slot j := by cases j <;> simp

/-! ### fcntIncResult -/

@[simp] theorem fcntIncResult_events (s : State) :
    (fcntIncResult s).events = s.events := rfl
@[simp] theorem fcntIncResult_presetn (s : State) :
    (fcntIncResult s).presetn = s.presetn := rfl
@[simp] theorem fcntIncResult_prdata (s : State) :
    (fcntIncResult s).prdata = s.prdata := rfl
@[simp] theorem fcntIncResult_draws (s : State) :
    (fcntIncResult s).draws = s.draws := rfl
@[simp] theorem fcntIncResult_epoch (s : State) :
    (fcntIncResult s).epoch = s.epoch := rfl
@[simp] theorem fcntIncResult_keylock (s : State) :
    (fcntIncResult s).keylock = s.keylock := rfl
@[simp] theorem fcntIncResult_done (s : State) :
    (fcntIncResult s).done = s.done := rfl
@[simp] theorem fcntIncResult_errcode (s : State) :
    (fcntIncResult s).errcode = s.errcode := rfl
@[simp] theorem fcntIncResult_wign (s : State) :
    (fcntIncResult s).wign = s.wign := rfl
@[simp] theorem fcntIncResult_inflight (s : State) :
    (fcntIncResult s).inflight = s.inflight := rfl
@[simp] theorem fcntIncResult_len (s : State) :
    (fcntIncResult s).len = s.len := rfl
@[simp] theorem fcntIncResult_frameLen (s : State) :
    (fcntIncResult s).frameLen = s.frameLen := rfl
@[simp] theorem fcntIncResult_devaddr (s : State) :
    (fcntIncResult s).devaddr = s.devaddr := rfl
@[simp] theorem fcntIncResult_ctrFcnt (s : State) :
    (fcntIncResult s).ctrFcnt = s.ctrFcnt := rfl
@[simp] theorem fcntIncResult_mhdr (s : State) :
    (fcntIncResult s).mhdr = s.mhdr := rfl
@[simp] theorem fcntIncResult_fctrl (s : State) :
    (fcntIncResult s).fctrl = s.fctrl := rfl
@[simp] theorem fcntIncResult_mic (s : State) :
    (fcntIncResult s).mic = s.mic := rfl
@[simp] theorem fcntIncResult_slot0 (s : State) :
    (fcntIncResult s).slot0 = s.slot0 := rfl
@[simp] theorem fcntIncResult_slot1 (s : State) :
    (fcntIncResult s).slot1 = s.slot1 := rfl
@[simp] theorem fcntIncResult_blkin (s : State) :
    (fcntIncResult s).blkin = s.blkin := rfl
@[simp] theorem fcntIncResult_blkout (s : State) :
    (fcntIncResult s).blkout = s.blkout := rfl
@[simp] theorem fcntIncResult_mem (s : State) :
    (fcntIncResult s).mem = s.mem := rfl
@[simp] theorem fcntIncResult_slot (s : State) (j : Slot) :
    (fcntIncResult s).slot j = s.slot j := by cases j <;> simp

@[simp] theorem keyexpResult_slot_same (k : Slot) (s : State) :
    (keyexpResult k s).slot k
      = { key := (s.slot k).key, sched := keyExpansion (s.slot k).key, valid := true } :=
  slot_setSlot_same _ _ _
theorem keyexpResult_slot_other (k j : Slot) (s : State) (h : j ≠ k) :
    (keyexpResult k s).slot j = s.slot j := slot_setSlot_other _ _ _ _ h
@[simp] theorem encblkResult_blkout (k : Slot) (s : State) :
    (encblkResult k s).blkout = s.enc k s.blkin := setBlkout_blkout _ _
@[simp] theorem cmacResult_blkout (k : Slot) (s : State) :
    (cmacResult k s).blkout = cmacTag (s.enc k) s.payload := setBlkout_blkout _ _
@[simp] theorem ctrResult_mem (k : Slot) (d : Byte) (s : State) :
    (ctrResult k d s).mem
      = s.mem.writeBytes outBase (transform (s.enc k) d s.devaddr s.ctrFcnt s.payload) :=
  writeOut_mem _ _
@[simp] theorem buildResult_mem (s : State) :
    (buildResult s).mem
      = s.mem.writeBytes outBase (frameBytes (s.enc .slot0) (s.enc .slot1) s.frameInputs) :=
  writeOut_mem _ _
@[simp] theorem buildResult_frameLen (s : State) :
    (buildResult s).frameLen = BitVec.ofNat 9 (s.length + 12) := by unfold buildResult; dsimp only
@[simp] theorem buildResult_mic (s : State) :
    (buildResult s).mic = micWord (frameTag (s.enc .slot0) (s.enc .slot1) s.frameInputs) := by
  unfold buildResult; dsimp only
@[simp] theorem fcntIncResult_fcnt (s : State) : (fcntIncResult s).fcnt = s.fcnt + 1 := rfl
@[simp] theorem fcntIncResult_fcntWrap (s : State) :
    (fcntIncResult s).fcntWrap = (s.fcntWrap || decide (s.fcnt = 0xFFFF)) := rfl


end Sys2Proof.Machine
end

