-- ==== Sys2Proof/Laws/Commands.lean ====
section
/-! SUPPORT. What the shared operation of a command can do, said once, and what each command's result
does to the state. -/

namespace Sys2Proof.Machine

/-- Presented to an idle core with its operands in order, a command is accepted (R68). -/
theorem runCommand_accept (i : Instr) (f : State → State) (s : State) (hi : s.inflight = none)
    (he : operandErrors i s = none) : runCommand i f s = .next (s.accept i) := by
  simp [runCommand, hi, he]

/-- Presented to an idle core with an operand error, a command is rejected with its code (R67). -/
theorem runCommand_reject (i : Instr) (f : State → State) (s : State) (c : ErrCode)
    (hi : s.inflight = none) (he : operandErrors i s = some c) :
    runCommand i f s = .next (s.reject c) := by simp [runCommand, hi, he]

/-- In flight, a command completes: its result, then BUSY 0, DONE 1, ERRCODE 0 (R69). -/
theorem runCommand_complete (i : Instr) (f : State → State) (s : State)
    (hi : s.inflight = some i) : runCommand i f s = .next (f s).finish := by
  simp [runCommand, hi]

/-- While another command is in flight, a presentation is lost (R66). -/
theorem runCommand_lost (i j : Instr) (f : State → State) (s : State)
    (hi : s.inflight = some j) (hj : j ≠ i) : runCommand i f s = .next s.lostWrite := by
  simp [runCommand, hi, hj]

/-- Everything a command's event can do. -/
theorem runCommand_cases (i : Instr) (f : State → State) (s t : State)
    (h : runCommand i f s = .next t) :
    (s.inflight = none ∧ operandErrors i s = none ∧ t = s.accept i) ∨
    (∃ c, s.inflight = none ∧ operandErrors i s = some c ∧ t = s.reject c) ∨
    (s.inflight = some i ∧ t = (f s).finish) ∨
    (∃ j, s.inflight = some j ∧ j ≠ i ∧ t = s.lostWrite) := by
  rcases hb : s.inflight with _ | j
  · rcases he : operandErrors i s with _ | c
    · rw [runCommand_accept i f s hb he] at h
      exact .inl ⟨rfl, rfl, (Host.Outcome.next.inj h).symm⟩
    · rw [runCommand_reject i f s c hb he] at h
      exact .inr (.inl ⟨c, rfl, rfl, (Host.Outcome.next.inj h).symm⟩)
  · by_cases hj : j = i
    · subst hj
      rw [runCommand_complete j f s hb] at h
      exact .inr (.inr (.inl ⟨rfl, (Host.Outcome.next.inj h).symm⟩))
    · rw [runCommand_lost i j f s hb hj] at h
      exact .inr (.inr (.inr ⟨j, rfl, hj, (Host.Outcome.next.inj h).symm⟩))

/-- What the completion of each command writes before BUSY falls, one name for all. -/
def resultOf : Instr → State → State
  | .nop => nopResult
  | .keyexp k => keyexpResult k
  | .encblk k => encblkResult k
  | .cmac k => cmacResult k
  | .ctr k d => ctrResult k d
  | .build => buildResult
  | .fcntInc => fcntIncResult

/-- Every meaning is the shared operation over its own result. -/
theorem exec_eq_runCommand (i : Instr) (s : State) : exec i s = runCommand i (resultOf i) s := by
  cases i <;> rfl

/-- A command's event always gives a next state: no fault, no refusal. -/
theorem runCommand_next (i : Instr) (f : State → State) (s : State) :
    ∃ t, runCommand i f s = .next t := by
  rcases hb : s.inflight with _ | j
  · rcases he : operandErrors i s with _ | c
    · exact ⟨_, runCommand_accept i f s hb he⟩
    · exact ⟨_, runCommand_reject i f s c hb he⟩
  · by_cases hj : j = i
    · subst hj; exact ⟨_, runCommand_complete j f s hb⟩
    · exact ⟨_, runCommand_lost i j f s hb hj⟩

/-- OUT[n] after OUT[0..len(bs)) was written: byte n of the bytes. -/
theorem writeOut_byteAt_inside (s : State) (bs : List Byte) (n : Nat) (h : n < bs.length) :
    (s.writeOut bs).byteAt (outBase + n) = bs[n] :=
  State.byteAt_of_read _ _ _ (Memory.read_writeBytes_inside s.mem outBase n bs h)

/-- Every other buffer byte reads as before (R41). -/
theorem writeOut_byteAt_outside (s : State) (bs : List Byte) (x : Nat)
    (h : x < outBase ∨ outBase + bs.length ≤ x) : (s.writeOut bs).byteAt x = s.byteAt x :=
  State.byteAt_congr _ _ x (Memory.read_writeBytes_outside s.mem outBase x bs h) rfl

/-- A command passes the LENGTH check exactly when LEN is at most its limit (R115). -/
theorem lengthError_eq_none (s : State) (n : Nat) : s.lengthError n = none ↔ s.length ≤ n := by
  simp [State.lengthError]

/-- A command passes the NO_SCHEDULE check exactly when the slot's schedule is valid (R115). -/
theorem scheduleError_eq_none (s : State) (k : Slot) :
    s.scheduleError k = none ↔ (s.slot k).valid = true := by
  simp [State.scheduleError]

theorem lengthError_congr (s t : State) (n : Nat) (h : s.len = t.len) :
    s.lengthError n = t.lengthError n := by
  unfold State.lengthError State.length; rw [h]

theorem scheduleError_congr (s t : State) (k : Slot) (h : (s.slot k).valid = (t.slot k).valid) :
    s.scheduleError k = t.scheduleError k := by
  unfold State.scheduleError; rw [h]

/-- Two states with the same LEN and the same valid bits have the same operand errors. -/
theorem operandErrors_congr (i : Instr) (s t : State) (hl : s.len = t.len)
    (hv : ∀ k, (s.slot k).valid = (t.slot k).valid) : operandErrors i s = operandErrors i t := by
  have hn := fun n => lengthError_congr s t n hl
  have hk := fun k => scheduleError_congr s t k (hv k)
  cases i <;> simp only [operandErrors, hn, hk]

end Sys2Proof.Machine
end

