-- ==== Sys2Proof/Laws/Bus.lean ====
section
/-! SUPPORT. What a bus transaction and a step of the machine can do, said once. -/

namespace Sys2Proof.Machine

/-- A bus read changes only PRDATA and the number of draws (R45). -/
theorem busRead_frame (addr : Offset) (s : State) :
    busRead addr s = { s with prdata := (busRead addr s).prdata, draws := (busRead addr s).draws } := by
  unfold busRead; split <;> rfl

/-- A strobed write to STATUS clears sticky bits, busy or not (R27, R46). -/
theorem busWrite_status (addr : Offset) (v : Word) (strb : Strobe) (s : State) (hs : strb ≠ 0)
    (hl : locationAt addr = .status) : busWrite addr v strb s = .done (s.clearSticky v strb) := by
  simp only [busWrite, if_neg hs, if_pos hl]

/-- A strobed write to a writable location other than STATUS, while busy, is lost (R46). -/
theorem busWrite_busy (addr : Offset) (v : Word) (strb : Strobe) (s : State) (hs : strb ≠ 0)
    (hl : locationAt addr ≠ .status) (hw : (locationAt addr).ignoresWrites = false)
    (hb : s.busy = true) : busWrite addr v strb s = .done s.lostWrite := by
  simp only [busWrite, if_neg hs, if_neg hl, hw, hb, if_true, Bool.false_eq_true, if_false]

/-- A strobed write to a writable location other than STATUS, while idle, has the effect of
`writeIdle` (R46). -/
theorem busWrite_idle (addr : Offset) (v : Word) (strb : Strobe) (s : State) (hs : strb ≠ 0)
    (hl : locationAt addr ≠ .status) (hw : (locationAt addr).ignoresWrites = false)
    (hb : s.busy = false) : busWrite addr v strb s = writeIdle (locationAt addr) v strb s := by
  simp only [busWrite, if_neg hs, if_neg hl, hw, hb, Bool.false_eq_true, if_false]

/-- Everything a bus write can do. -/
theorem busWrite_cases (addr : Offset) (v : Word) (strb : Strobe) (s : State) :
    busWrite addr v strb s = .done s ∨
    busWrite addr v strb s = .done (s.clearSticky v strb) ∨
    (s.busy = true ∧ busWrite addr v strb s = .done s.lostWrite) ∨
    (s.busy = false ∧ busWrite addr v strb s = writeIdle (locationAt addr) v strb s) := by
  by_cases hs : strb = 0
  · exact .inl (by simp only [busWrite, if_pos hs])
  · by_cases hl : locationAt addr = .status
    · exact .inr (.inl (busWrite_status addr v strb s hs hl))
    · by_cases hw : (locationAt addr).ignoresWrites = true
      · exact .inl (by simp only [busWrite, if_neg hs, if_neg hl, hw, if_true])
      · have hw := Bool.eq_false_iff.2 hw
        cases hb : s.busy
        · exact .inr (.inr (.inr ⟨rfl, busWrite_idle addr v strb s hs hl hw hb⟩))
        · exact .inr (.inr (.inl ⟨rfl, busWrite_busy addr v strb s hs hl hw hb⟩))

/-- A strobed store to a word keeps the canonical form. -/
theorem storeLanes_wf (m : Memory) (a : Nat) (v : Word) (strb : Strobe) (h : m.wf = true) :
    (storeLanes m a v strb).wf = true := by
  have one : ∀ (m : Memory) (i : Nat), m.wf = true →
      (if strb.getLsbD i = true then m.write (a + i) (lane v i) else m).wf = true := by
    intro m i h
    split
    · exact Memory.write_wf _ _ _ h
    · exact h
  exact one _ _ (one _ _ (one _ _ (one _ _ h)))

/-- A strobed store to a word inside DATA and OUT keeps every listed address there. -/
theorem storeLanes_inBuffers (m : Memory) (a : Nat) (v : Word) (strb : Strobe)
    (h : m.inBuffers = true) (lo : 0x100 ≤ a) (hi : a + 3 < 0x300) :
    (storeLanes m a v strb).inBuffers = true := by
  have one : ∀ (m : Memory) (i : Nat), i ≤ 3 → m.inBuffers = true →
      (if strb.getLsbD i = true then m.write (a + i) (lane v i) else m).inBuffers = true := by
    intro m i hi3 h
    split
    · exact Memory.write_inBuffers _ _ _ h (by omega) (by omega)
    · exact h
  exact one _ _ (by omega) (one _ _ (by omega) (one _ _ (by omega) (one _ _ (by omega) h)))

/-- What each address reads as after a strobed store to the word at `a`. -/
theorem read_storeLanes (m : Memory) (a x : Nat) (v : Word) (strb : Strobe) :
    (storeLanes m a v strb).read x =
      if a ≤ x ∧ x < a + 4 ∧ strb.getLsbD (x - a) = true then some (lane v (x - a)) else m.read x := by
  have one : ∀ (m : Memory) (i : Nat),
      (if strb.getLsbD i = true then m.write (a + i) (lane v i) else m).read x =
        if x = a + i ∧ strb.getLsbD i = true then some (lane v i) else m.read x := by
    intro m i
    by_cases hs : strb.getLsbD i = true
    · by_cases hx : x = a + i
      · simp [hs, hx]
      · simp [hs, hx, Memory.read_write_other _ _ _ _ hx]
    · simp [hs]
  simp only [storeLanes, List.foldl, one]
  by_cases h : a ≤ x ∧ x < a + 4
  · obtain ⟨i, hi, rfl⟩ : ∃ i, i < 4 ∧ x = a + i := ⟨x - a, by omega, by omega⟩
    obtain rfl | rfl | rfl | rfl : i = 0 ∨ i = 1 ∨ i = 2 ∨ i = 3 := by omega
    all_goals simp
  · have hne : ∀ i, i < 4 → x ≠ a + i := by intro i hi; omega
    have h' : ¬ (a ≤ x ∧ x < a + 4 ∧ strb.getLsbD (x - a) = true) := fun c => h ⟨c.1, c.2.1⟩
    simp only [hne 0 (by omega), hne 1 (by omega), hne 2 (by omega), hne 3 (by omega), false_and,
      if_false, if_neg h']

/-- BUSY is 0 exactly when no command is in flight (R25). -/
theorem busy_eq_false (s : State) : s.busy = false ↔ s.inflight = none := by
  simp [State.busy]

/-- BUSY is 1 exactly when a command is in flight (R25). -/
theorem busy_eq_true (s : State) : s.busy = true ↔ ∃ i, s.inflight = some i := by
  simp [State.busy, Option.isSome_iff_exists]

/-- Presenting a word always gives a next state. -/
theorem present_next (w : Word) (s : State) : ∃ t, present w s = .next t := by
  unfold present
  split
  · exact ⟨_, rfl⟩
  · rw [exec_eq_runCommand]; exact runCommand_next _ _ _

/-- With an event left, a step takes it. -/
theorem step_cons (s : State) (e : Event) (rest : List Event) (h : s.events = e :: rest) :
    step s = runEvent e { s with events := rest } := by simp [step, h]

/-- With no event left, the engine may move. -/
theorem step_nil (s : State) (h : s.events = []) : step s = runUnscheduled s := by simp [step, h]

/-- A draw changes PRDATA and the number of draws only. -/
theorem drawRead_eq (s : State) :
    s.drawRead = { s with prdata := Config.busDraw s.draws, draws := s.draws + 1 } := rfl

end Sys2Proof.Machine
end

