-- ==== Sys2Proof/Laws/Map.lean ====
section
/-! SUPPORT. Where the locations of the register map stand (spec/10_state.md R20). -/

namespace Sys2Proof.Machine

theorem locationAt_key0 (j : Fin 4) :
    locationAt (BitVec.ofNat 12 (0x030 + 4 * j.val)) = .key .slot0 j := by
  revert j; decide

theorem locationAt_key1 (j : Fin 4) :
    locationAt (BitVec.ofNat 12 (0x040 + 4 * j.val)) = .key .slot1 j := by
  revert j; decide

theorem locationAt_blkin (j : Fin 4) :
    locationAt (BitVec.ofNat 12 (0x050 + 4 * j.val)) = .blkin j := by
  revert j; decide

theorem locationAt_blkout (j : Fin 4) :
    locationAt (BitVec.ofNat 12 (0x060 + 4 * j.val)) = .blkout j := by
  revert j; decide

theorem locationAt_data (j : Fin 64) :
    locationAt (BitVec.ofNat 12 (0x100 + 4 * j.val)) = .data j := by
  revert j; decide

theorem locationAt_out (j : Fin 64) :
    locationAt (BitVec.ofNat 12 (0x200 + 4 * j.val)) = .out j := by
  revert j; decide

/-- The byte offset of the location of a key register lies in 0x030 .. 0x04F (R36). -/
theorem locationAt_key_range (addr : Offset) (k : Slot) (j : Fin 4)
    (h : locationAt addr = .key k j) : 0x030 ≤ addr.toNat ∧ addr.toNat < 0x050 := by
  have all : ∀ addr : Offset, (∃ k j, locationAt addr = .key k j) →
      0x030 ≤ addr.toNat ∧ addr.toNat < 0x050 := by
    intro addr ⟨k, j, h⟩
    unfold locationAt locationOfIndex at h
    split at h <;> try contradiction
    split at h
    · omega
    · split at h
      · omega
      · split at h; · contradiction
        split at h; · contradiction
        split at h; · contradiction
        split at h <;> contradiction
  exact all addr ⟨k, j, h⟩

/-- Two byte offsets of the same word are the same location (R49). -/
theorem locationAt_congr (a b : Offset) (h : a.toNat / 4 = b.toNat / 4) :
    locationAt a = locationAt b := by unfold locationAt; rw [h]

end Sys2Proof.Machine
end

