-- ==== Sys2Proof/Laws/PerInstr.lean ====
section
/-! SUPPORT. Statements made one constructor of `Instr` at a time. -/

namespace Sys2Proof.Laws

/-- The word of a command agrees with one row of the table of R63, and its fields pass the checks of
R63 and R64. -/
def EncodingRow.Statement (i : Instr) : Prop :=
  (∃ r ∈ commandTable, r.covers (encode i) = true) ∧ i.wellFormed = true

theorem EncodingRow.nop : EncodingRow.Statement .nop :=
  ⟨⟨_, List.mem_cons_self, by decide⟩, by decide⟩

theorem EncodingRow.keyexp : ∀ k, EncodingRow.Statement (.keyexp k) := fun k =>
  ⟨⟨⟨0x00000001, 0xFFFFFEFF⟩, by decide, by cases k <;> decide⟩, by cases k <;> decide⟩

theorem EncodingRow.encblk : ∀ k, EncodingRow.Statement (.encblk k) := fun k =>
  ⟨⟨⟨0x00000002, 0xFFFFFEFF⟩, by decide, by cases k <;> decide⟩, by cases k <;> decide⟩

theorem EncodingRow.cmac : ∀ k, EncodingRow.Statement (.cmac k) := fun k =>
  ⟨⟨⟨0x00000003, 0xFFFFFEFF⟩, by decide, by cases k <;> decide⟩, by cases k <;> decide⟩

theorem EncodingRow.ctr : ∀ k d, EncodingRow.Statement (.ctr k d) := fun k d =>
  ⟨⟨⟨0x00000004, 0xFF00FEFF⟩, by decide, by cases k <;> revert d <;> decide +kernel⟩,
    by cases k <;> revert d <;> decide +kernel⟩

theorem EncodingRow.build : EncodingRow.Statement .build :=
  ⟨⟨⟨0x00000005, 0xFFFFFFFF⟩, by decide, by decide⟩, by decide⟩

theorem EncodingRow.fcntInc : EncodingRow.Statement .fcntInc :=
  ⟨⟨⟨0x00000006, 0xFFFFFFFF⟩, by decide, by decide⟩, by decide⟩

end Sys2Proof.Laws
end

