-- ==== Sys2Proof/Laws/Step.lean ====
section
/-! SUPPORT. What a step of the machine can do, said once: every invariant of the machine follows from
the ten cases of `StepCase`. -/

namespace Sys2Proof.Machine

/-- The state once the next event is taken. -/
def State.taken (s : State) : State := { s with events := s.events.tail }

/-- The cases of a step from `s` to `t`. -/
inductive StepCase (s t : State) : Prop where
  /-- Nothing but the event is used up. -/
  | idle (h : t = s.taken)
  /-- A bus read: PRDATA and the draws (R45). -/
  | read (p : Word) (d : Nat) (h : t = { s.taken with prdata := p, draws := d })
  /-- PRESETn falls (R130). -/
  | hold (hp : s.presetn = true) (he : ∃ rest, s.events = .presetn false :: rest)
      (h : t = { s.taken with presetn := false })
  /-- PRESETn rises (R131). -/
  | release (hp : s.presetn = false) (he : ∃ rest, s.events = .presetn true :: rest)
      (h : t = s.taken.release)
  /-- A write to STATUS (R27). -/
  | sticky (hp : s.presetn = true) (v : Word) (strb : Strobe) (h : t = s.taken.clearSticky v strb)
  /-- A write lost because a command is in flight (R46). -/
  | lost (hp : s.presetn = true) (i : Instr) (hi : s.inflight = some i) (h : t = s.taken.lostWrite)
  /-- A strobed write of an idle core to a location other than CMD (R46). -/
  | write (hp : s.presetn = true) (hi : s.inflight = none) (addr : Offset) (v : Word) (strb : Strobe)
      (he : ∃ rest, s.events = .write addr v strb :: rest) (hs : strb ≠ 0)
      (h : writeIdle (locationAt addr) v strb s.taken = .done t)
  /-- A rejection (R67). -/
  | reject (hp : s.presetn = true) (hi : s.inflight = none) (c : ErrCode) (h : t = s.taken.reject c)
  /-- An acceptance (R68). -/
  | accept (hp : s.presetn = true) (hi : s.inflight = none) (i : Instr)
      (ho : operandErrors i s.taken = none) (h : t = s.taken.accept i)
  /-- A completion (R69). -/
  | complete (hp : s.presetn = true) (i : Instr) (hi : s.inflight = some i)
      (h : t = (resultOf i s.taken).finish)

theorem taken_cons (s : State) (e : Event) (rest : List Event) (h : s.events = e :: rest) :
    ({ s with events := rest } : State) = s.taken := by simp [State.taken, h]

theorem taken_nil (s : State) (h : s.events = []) : s.taken = s := by
  simp only [State.taken, h, List.tail_nil]; cases s; cases h; rfl

/-- While PRESETn is high an event takes effect. -/
theorem runEvent_live (e : Event) (s : State) (hp : s.presetn = true) :
    runEvent e s = liveEvent e s := by simp only [runEvent, hp, if_true]

/-- While PRESETn is low an event is ignored, but for its release (R130). -/
theorem runEvent_held (e : Event) (s : State) (hp : s.presetn = false) :
    runEvent e s = .next (heldEvent e s) := by
  simp only [runEvent, hp, Bool.false_eq_true, if_false]

/-- The step of a running core with an event left. -/
theorem step_live (s : State) (e : Event) (rest : List Event) (he : s.events = e :: rest)
    (hp : s.presetn = true) : step s = liveEvent e s.taken := by
  rw [step_cons s e rest he, taken_cons s e rest he, runEvent_live e s.taken hp]

/-- The step of a core held in reset with an event left. -/
theorem step_held (s : State) (e : Event) (rest : List Event) (he : s.events = e :: rest)
    (hp : s.presetn = false) : step s = .next (heldEvent e s.taken) := by
  rw [step_cons s e rest he, taken_cons s e rest he, runEvent_held e s.taken hp]

/-- The engine's turn completes the command in flight, or does nothing. -/
theorem engineStep_case (s t : State) (hp : s.presetn = true) (h : engineStep s.taken = .next t) :
    StepCase s t := by
  unfold engineStep at h
  rcases hi : s.inflight with _ | i
  · rw [show s.taken.inflight = none from hi] at h
    exact .idle (Host.Outcome.next.inj h).symm
  · rw [show s.taken.inflight = some i from hi] at h
    change exec i s.taken = .next t at h
    rw [exec_eq_runCommand, runCommand_complete i _ s.taken hi] at h
    exact .complete hp i hi (Host.Outcome.next.inj h).symm

/-- A word presented to an idle core is rejected or accepted. -/
theorem present_case (s t : State) (w : Word) (hp : s.presetn = true) (hi : s.inflight = none)
    (h : present w s.taken = .next t) : StepCase s t := by
  unfold present at h
  split at h
  · exact .reject hp hi _ (Host.Outcome.next.inj h).symm
  · rename_i i _
    rw [exec_eq_runCommand] at h
    rcases runCommand_cases i _ _ _ h with ⟨_, ho, ht⟩ | ⟨c, _, _, ht⟩ | ⟨hj, _⟩ | ⟨j, hj, _⟩
    · exact .accept hp hi i ho ht
    · exact .reject hp hi c ht
    · exact absurd (hi.symm.trans hj) (by simp)
    · exact absurd (hi.symm.trans hj) (by simp)

/-- A bus write of a running core. -/
theorem hostWrite_case (s t : State) (addr : Offset) (v : Word) (strb : Strobe) (rest : List Event)
    (he : s.events = .write addr v strb :: rest) (hp : s.presetn = true)
    (h : hostWrite addr v strb s.taken = .next t) : StepCase s t := by
  unfold hostWrite at h
  by_cases hs : strb = 0
  · rw [show busWrite addr v strb s.taken = .done s.taken from by simp [busWrite, hs]] at h
    exact .idle (Host.Outcome.next.inj h).symm
  rcases busWrite_cases addr v strb s.taken with hw | hw | ⟨hb, hw⟩ | ⟨hb, hw⟩
  · rw [hw] at h; exact .idle (Host.Outcome.next.inj h).symm
  · rw [hw] at h; exact .sticky hp v strb (Host.Outcome.next.inj h).symm
  · rw [hw] at h
    obtain ⟨i, hi⟩ := (busy_eq_true _).1 hb
    exact .lost hp i hi (Host.Outcome.next.inj h).symm
  · have hi : s.inflight = none := (busy_eq_false _).1 hb
    rw [hw] at h
    split at h
    · rename_i u hu
      cases h
      exact .write hp hi addr v strb ⟨rest, he⟩ hs hu
    · exact present_case s t _ hp hi h

/-- Every step is one of the ten cases. -/
theorem step_case (s t : State) (h : step s = .next t) : StepCase s t := by
  rcases he : s.events with _ | ⟨e, rest⟩
  · rw [step_nil s he] at h
    unfold runUnscheduled at h
    split at h
    · rename_i hp
      rw [← taken_nil s he] at h
      exact engineStep_case s t hp (by simpa [taken_nil s he] using h)
    · exact .idle ((Host.Outcome.next.inj h).symm.trans (taken_nil s he).symm)
  · rw [step_cons s e rest he, taken_cons s e rest he] at h
    unfold runEvent at h
    rcases hp : s.presetn with _ | _
    · rw [show s.taken.presetn = false from hp] at h
      have h := (Host.Outcome.next.inj h).symm
      cases e with
      | read addr => exact .read _ _ h
      | write addr v strb => exact .idle h
      | engine => exact .idle h
      | presetn level =>
        cases level with
        | true => exact .release hp ⟨rest, he⟩ h
        | false => exact .idle h
    · rw [show s.taken.presetn = true from hp] at h
      cases e with
      | read addr =>
        exact .read _ _ ((Host.Outcome.next.inj h).symm.trans (busRead_frame addr s.taken))
      | write addr v strb => exact hostWrite_case s t addr v strb rest he hp h
      | engine => exact engineStep_case s t hp h
      | presetn level =>
        cases level with
        | true => exact .idle (Host.Outcome.next.inj h).symm
        | false => exact .hold hp ⟨rest, he⟩ (Host.Outcome.next.inj h).symm

/-- A write of an idle core to a location other than CMD leaves ERRCODE (R46). -/
theorem writeIdle_errcode (l : Location) (v : Word) (strb : Strobe) (s t : State)
    (h : writeIdle l v strb s = .done t) : t.errcode = s.errcode := by
  cases l with
  | cmd => cases h
  | key k j =>
    cases h
    unfold writeKey
    split <;> simp
  | _ => cases h; rfl

/-- ERRCODE holds its code until a command is rejected, accepted or completed, or a reset ends (R67 to R69,
R121, R131): no bus read, no other bus write and no lost write changes it (R118). -/
theorem step_errcode (s t : State) (h : step s = .next t) :
    t.errcode = s.errcode ∨
    (∃ c, s.inflight = none ∧ t = s.taken.reject c) ∨
    (∃ i, s.inflight = none ∧ t = s.taken.accept i) ∨
    (∃ i, s.inflight = some i ∧ t = (resultOf i s.taken).finish) ∨
    (s.presetn = false ∧ t = s.taken.release) := by
  cases step_case s t h with
  | idle h => exact .inl (h ▸ rfl)
  | read p d h => exact .inl (h ▸ rfl)
  | hold hp he h => exact .inl (h ▸ rfl)
  | release hp he h => exact .inr (.inr (.inr (.inr ⟨hp, h⟩)))
  | sticky hp v strb h => exact .inl (h ▸ rfl)
  | lost hp i hi h => exact .inl (h ▸ rfl)
  | write hp hi addr v strb he hs h => exact .inl (writeIdle_errcode _ v strb s.taken t h)
  | reject hp hi c h => exact .inr (.inl ⟨c, hi, h⟩)
  | accept hp hi i ho h => exact .inr (.inr (.inl ⟨i, hi, h⟩))
  | complete hp i hi h => exact .inr (.inr (.inr (.inl ⟨i, hi, h⟩)))

end Sys2Proof.Machine
end

