-- ==== Sys2Proof/Machine/HostMacros.lean ====
section
/-! DEFINITION. The host's pseudo-commands as lists of events (spec/30_encoding.md R73, R74). A POLL is
one read of STATUS that comes after the engine's turn, so that it returns BUSY = 0; a host may read
STATUS any number of times before. -/

namespace Sys2Proof.Machine

/-- `WR <offset>, <value>` with every strobe set (R73). -/
def wr (offset : Nat) (v : Word) : Event := .write (BitVec.ofNat 12 offset) v 0b1111

/-- `RD <offset>` (R73). -/
def rd (offset : Nat) : Event := .read (BitVec.ofNat 12 offset)

/-- `CMD <command>` (R73). -/
def cmd (i : Instr) : Event := commandWrite (encode i)

/-- `POLL` (R73). -/
def poll : List Event := [.engine, rd 0x008]

/-- The offset of KEYk_0 (R36). -/
def keyOffset : Slot → Nat
  | .slot0 => 0x030
  | .slot1 => 0x040

/-- Four writes of a block's words from an offset on (R48). -/
def wrBlock (offset : Nat) (b : Block) : List Event :=
  [wr offset (blockWord b 0), wr (offset + 4) (blockWord b 1), wr (offset + 8) (blockWord b 2),
   wr (offset + 12) (blockWord b 3)]

/-- `SETKEY k, <16 bytes>` (R74). -/
def setKey (k : Slot) (key : Block) : List Event :=
  wrBlock (keyOffset k) key ++ [cmd (.keyexp k)] ++ poll

/-- `ENC k, <16 bytes>` (R74). -/
def encBlock (k : Slot) (b : Block) : List Event :=
  wrBlock 0x050 b ++ [cmd (.encblk k)] ++ poll ++ [rd 0x060, rd 0x064, rd 0x068, rd 0x06C]

/-- The strobes of the last word of a DATA load when `n` bytes are left (R74). -/
def strobesFor (n : Nat) : Strobe := BitVec.ofNat 4 (2 ^ min n 4 - 1)

/-- The write of DATA word j in a load of the given bytes (R74). -/
def loadWord (bs : List Byte) (j : Nat) : Event :=
  let b (m : Nat) : Byte := bs.getD (4 * j + m) 0
  .write (BitVec.ofNat 12 (0x100 + 4 * j)) (wordOfLanes (b 0) (b 1) (b 2) (b 3))
    (strobesFor (bs.length - 4 * j))

/-- `LOADDATA <bytes>` (R74). -/
def loadData (bs : List Byte) : List Event :=
  (List.range ((bs.length + 3) / 4)).map (loadWord bs) ++ [wr 0x010 (BitVec.ofNat 32 bs.length)]

/-- The core's part of `SEND`, the source's `sendData(payload)` (R74, R109): build the frame, read
FRAME_LEN and the words of OUT[0..FRAME_LEN), and after the hand-off advance the frame counter. -/
def send (payload : List Byte) : List Event :=
  loadData payload ++ [cmd .build] ++ poll ++ [rd 0x014]
    ++ (List.range ((payload.length + 12 + 3) / 4)).map (fun j => rd (0x200 + 4 * j))
    ++ [cmd .fcntInc] ++ poll

end Sys2Proof.Machine
end

