-- ==== Sys2Proof/Tests/Slice0.lean ====
section
/-! SUPPORT. The model's own tests: ill-formed fields refused, words decoded as the spec writes them,
one-step tests on the spec's vectors (spec/95_test_vectors.md), and a witness for the hypotheses of every
statement of Certificates/Slice0/Obligations.lean that has any. -/

namespace Sys2Proof.Tests

open Sys2Proof Sys2Proof.Machine

/-! ### Helpers -/

/-- The key K0 of spec/95_test_vectors.md. -/
def key0 : Block := #v[0x2b, 0x7e, 0x15, 0x16, 0x28, 0xae, 0xd2, 0xa6, 0xab, 0xf7, 0x15, 0x88,
  0x09, 0xcf, 0x4f, 0x3c]

/-- The key K1 of spec/95_test_vectors.md. -/
def key1 : Block := #v[0x00, 0x01, 0x02, 0x03, 0x04, 0x05, 0x06, 0x07, 0x08, 0x09, 0x0a, 0x0b,
  0x0c, 0x0d, 0x0e, 0x0f]

/-- A slot whose schedule is derived from its key. -/
def loaded (key : Block) : KeySlot := { key := key, sched := keyExpansion key, valid := true }

/-- "HELLO" in DATA. -/
def hello : Memory := [(0x100, 0x48), (0x101, 0x45), (0x102, 0x4c), (0x103, 0x4c), (0x104, 0x4f)]

/-- An idle core as the vectors of spec/95_test_vectors.md have it: both keys loaded, DEVADDR
0x01020304, FCNT and CTR_FCNT 1, the payload "HELLO". -/
def ready : State :=
  { State.reset with slot0 := loaded key0, slot1 := loaded key1, devaddr := 0x01020304, fcnt := 1,
                     ctrFcnt := 1, mem := hello, len := 5 }

/-- The same with a command in flight. -/
def running (i : Instr) : State := { ready with inflight := some i }

/-- A part of the state that an outcome gives, if it is a next state. -/
def part {α : Type} (o : Host.Outcome State Fault Refusal) (f : State → α) : Option α :=
  match o with
  | .next t => some (f t)
  | .fault _ => none
  | .refused _ => none

/-- The state is sound but for what needs a proof: used by the witnesses that need `Inv`. -/
theorem running_inv (i : Instr) (h : operandErrors i (running i) = none) : Inv (running i) where
  memWf := rfl
  memInBuffers := rfl
  busyNotDone := fun _ => rfl
  busyOk := fun _ => rfl
  inflightSound := by intro j hj; cases hj; exact h
  schedulesCurrent := by intro k _; cases k <;> rfl
  frameLenRange := .inl rfl

/-! ### Ill-formed fields are refused, one check each (R63, R64) -/

theorem test_wf_op : CommandFields.wellFormed ⟨0x07, false, 0, 0, 0⟩ = false ∧
    CommandFields.opLegal ⟨0x07, false, 0, 0, 0⟩ = false := by decide
theorem test_wf_reserved_low : CommandFields.wellFormed ⟨0x01, true, 1, 0, 0⟩ = false ∧
    CommandFields.reservedLowClear ⟨0x01, true, 1, 0, 0⟩ = false := by decide
theorem test_wf_reserved_high : CommandFields.wellFormed ⟨0x04, true, 0, 1, 0x80⟩ = false ∧
    CommandFields.reservedHighClear ⟨0x04, true, 0, 1, 0x80⟩ = false := by decide
theorem test_wf_ksel : CommandFields.wellFormed ⟨0x05, true, 0, 0, 0⟩ = false ∧
    CommandFields.kselAllowed ⟨0x05, true, 0, 0, 0⟩ = false := by decide
theorem test_wf_dir : CommandFields.wellFormed ⟨0x03, false, 0, 1, 0⟩ = false ∧
    CommandFields.dirAllowed ⟨0x03, false, 0, 1, 0⟩ = false := by decide

/-! ### Words written out from R60 to R63 and R73, and the rejected words of spec/95 section 10 -/

theorem test_decode_nop : decode 0x00000000 = .ok .nop := by decide
theorem test_decode_keyexp : decode 0x00000001 = .ok (.keyexp .slot0) ∧
    decode 0x00000101 = .ok (.keyexp .slot1) := by decide
theorem test_decode_encblk : decode 0x00000002 = .ok (.encblk .slot0) ∧
    decode 0x00000102 = .ok (.encblk .slot1) := by decide
theorem test_decode_cmac : decode 0x00000003 = .ok (.cmac .slot0) ∧
    decode 0x00000103 = .ok (.cmac .slot1) := by decide
theorem test_decode_ctr : decode 0x00010004 = .ok (.ctr .slot0 0x01) ∧
    decode 0x00FF0104 = .ok (.ctr .slot1 0xFF) ∧
    decode 0x00800004 = .ok (.ctr .slot0 0x80) := by decide
theorem test_decode_build : decode 0x00000005 = .ok .build := by decide
theorem test_decode_fcntInc : decode 0x00000006 = .ok .fcntInc := by decide
/-- X1 to X3. -/
theorem test_decode_illegal : decode 0x00000007 = .error .illegalOp ∧
    decode 0x000000FF = .error .illegalOp ∧ decode 0x00000207 = .error .illegalOp := by decide
/-- X4 to X11. -/
theorem test_decode_reserved :
    [0x80000000, 0x00000200, 0x00000100, 0x00000105, 0x00000106, 0x00010002, 0x00010101,
      (0x01000004 : Word)].all (fun w =>
      decide (decode w = .error .reservedField)) = true := by decide
theorem test_table_word : decodeTableWord 32 0x00FF0104 = some (.ctr .slot1 0xFF) ∧
    decodeTableWord 32 0x00000105 = none := by decide

/-! ### One command, one step (the values of spec/95_test_vectors.md) -/

/-- N2's pattern: the completion of NOP leaves WIGN alone; STATUS 0x2001 becomes 0x2002. -/
theorem test_nop : part (exec .nop { State.reset with inflight := some .nop, wign := true })
    State.statusWord = some 0x00002002 := by decide
/-- N1's command on STATUS 0x26 (N1 writes 0x22: log entry 22): its acceptance gives BUSY alone, as X24
has it (log entry 21). -/
theorem test_nop_accepted :
    part (exec .nop { State.reset with done := true, errcode := .reservedField }) State.statusWord
      = some 0x00000001 := by decide
/-- P-KS: RK_10 of K0, and RK_1. -/
theorem test_keyexp : part (exec (.keyexp .slot0)
    { State.reset with slot0 := { KeySlot.reset with key := key0 }, inflight := some (.keyexp .slot0) })
      (fun t => (t.slot0.sched[1].toList, t.slot0.sched[10].toList, t.slot0.valid, t.slot1.valid)) =
    some ([0xa0, 0xfa, 0xfe, 0x17, 0x88, 0x54, 0x2c, 0xb1, 0x23, 0xa3, 0x39, 0x39, 0x2a, 0x6c, 0x76,
        0x05],
      [0xd0, 0x14, 0xf9, 0xa8, 0xc9, 0xee, 0x25, 0x89, 0xe1, 0x3f, 0x0c, 0xc8, 0xb6, 0x63, 0x0c, 0xa6],
      true, false) := by decide +kernel
/-- X23: KEYEXP is accepted under KEYLOCK. -/
theorem test_keyexp_locked : part (exec (.keyexp .slot1) { State.reset with keylock := true })
    State.statusWord = some 0x00000401 := by decide
/-- P-AES2, in slot 1: the four words of BLKOUT. -/
theorem test_encblk : part (exec (.encblk .slot1)
    { running (.encblk .slot1) with blkin := #v[0x00, 0x11, 0x22, 0x33, 0x44, 0x55, 0x66, 0x77, 0x88,
        0x99, 0xaa, 0xbb, 0xcc, 0xdd, 0xee, 0xff] })
      (fun t => (blockWord t.blkout 0, blockWord t.blkout 1, blockWord t.blkout 2, blockWord t.blkout 3))
    = some (0xD8E0C469, 0x30047B6A, 0x80B7CDD8, 0x5AC5B470) := by decide +kernel
/-- X16: ENCBLK without a schedule; STATUS bits 7:0 are 0x46. -/
theorem test_encblk_no_schedule : part (exec (.encblk .slot0) State.reset) State.statusWord
    = some 0x00000046 := by decide
/-- T0: the empty message under K0. -/
theorem test_cmac_empty : part (exec (.cmac .slot0) { running (.cmac .slot0) with len := 0 })
      (fun t => (blockWord t.blkout 0, blockWord t.blkout 3, t.mic)) =
    some (0x29691DBB, 0x4667759B, 0) := by decide +kernel
/-- T16: one complete block under K0. -/
theorem test_cmac_block : part (exec (.cmac .slot0)
    { running (.cmac .slot0) with
        len := 16,
        mem := Memory.writeBytes [] 0x100 [0x6b, 0xc1, 0xbe, 0xe2, 0x2e, 0x40, 0x9f, 0x96, 0xe9, 0x3d,
          0x7e, 0x11, 0x73, 0x93, 0x17, 0x2a] })
      (fun t => (blockWord t.blkout 0, blockWord t.blkout 3)) = some (0xB4160A07, 0x7C284AD0) := by
  decide +kernel
/-- "HELLO" under K0, direction 0 (spec/95 section 7.2). -/
theorem test_ctr : part (exec (.ctr .slot0 0x00) (running (.ctr .slot0 0x00)))
      (fun t => [t.outByte 0, t.outByte 1, t.outByte 2, t.outByte 3, t.outByte 4]) =
    some [0x4d, 0xe4, 0xe0, 0xb6, 0x2b] := by decide +kernel
/-- "HELLO" under K0, direction 1 (spec/95 section 7.2). -/
theorem test_ctr_direction : part (exec (.ctr .slot0 0x01) (running (.ctr .slot0 0x01)))
      (fun t => [t.outByte 0, t.outByte 1, t.outByte 2, t.outByte 3, t.outByte 4]) =
    some [0x71, 0x8f, 0x4c, 0x9d, 0xd7] := by decide +kernel
/-- B1: the frame of "HELLO" with FCNT 1. -/
theorem test_build : part (exec .build (running .build))
      (fun t => ((List.range 17).map t.outByte, t.frameLen, t.mic, t.fcnt)) =
    some ([0x40, 0x04, 0x03, 0x02, 0x01, 0x00, 0x01, 0x00, 0x4d, 0xe4, 0xe0, 0xb6, 0x2b, 0xcf, 0xb9,
      0xf7, 0x27], 17, 0x27F7B9CF, 1) := by decide +kernel
/-- X7: RESERVED_FIELD ahead of LENGTH and NO_SCHEDULE, by a step on a CMD write. -/
theorem test_build_reserved : part (step
    { State.reset with len := 300, events := [.write 0x00C 0x00000105 0b1111] }) State.statusWord
    = some 0x00000026 := by decide
/-- F5: the wrap from 0xFFFF. -/
theorem test_fcntInc_wrap :
    part (exec .fcntInc { State.reset with fcnt := 0xFFFF, inflight := some .fcntInc })
      (fun t => (t.fcnt, t.statusWord)) = some (0x0000, 0x00001002) := by decide
/-- F3: no sign at 0x7FFF. -/
theorem test_fcntInc : part (exec .fcntInc { State.reset with fcnt := 0x7FFF, inflight := some .fcntInc })
      (fun t => (t.fcnt, t.statusWord)) = some (0x8000, 0x00000002) := by decide

/-! ### The bus (spec/95 sections 10 and 11) -/

/-- V4: PADDR[1:0] is ignored. -/
theorem test_bus_len : part (step { State.reset with events := [.write 0x011 0x000000F2 0b1111] })
    (fun t => t.readLocation (locationAt 0x010)) = some 0x000000F2 := by decide
/-- V5: bits 31:9 of LEN are reserved. -/
theorem test_bus_len_mask : part (step { State.reset with events := [.write 0x010 0xFFFFFFFF 0b1111] })
    (fun t => t.readLocation (locationAt 0x010)) = some 0x000001FF := by decide
/-- V6: bits 31:16 of FHDR are reserved. -/
theorem test_bus_fhdr : part (step { State.reset with events := [.write 0x024 0xFFFF2080 0b1111] })
    (fun t => t.readLocation (locationAt 0x024)) = some 0x00002080 := by decide
/-- V10: the unstrobed lanes of a CMD write are 0x00. -/
theorem test_bus_cmd_lanes : part (step { ready with events := [.write 0x00C 0x12345605 0b0001] })
    (fun t => t.inflight) = some (some .build) := by decide
/-- W5: a key write of one lane, and SCHED0_VALID. -/
theorem test_bus_key : part (step { ready with events := [.write 0x038 0x00000000 0b0001] })
    (fun t => (t.slot0.key[8], t.slot0.key[9], t.slot0.valid, t.slot1.valid)) =
    some (0x00, 0xf7, false, true) := by decide +kernel
/-- W4: a key write under KEYLOCK. -/
theorem test_bus_key_locked : part (step
    { ready with keylock := true, events := [.write 0x030 0xFFFFFFFF 0b1111] })
    (fun t => (t.slot0.key[0], t.slot0.valid, t.wign)) = some (0x2b, true, true) := by decide +kernel
/-- W2: a command while busy is lost and the command in flight is not disturbed. -/
theorem test_bus_busy : part (step
    { running .build with events := [.write 0x00C 0x00000000 0b1111] })
    (fun t => (t.inflight, t.wign)) = some (some .build, true) := by decide
/-- V8, by the host macro: "HELLO" into DATA, the last word with one strobe. -/
theorem test_loadData : loadData [0x48, 0x45, 0x4c, 0x4c, 0x4f] =
    [.write 0x100 0x4C4C4548 0b1111, .write 0x104 0x0000004F 0b0001, .write 0x010 5 0b1111] := by
  decide

/-! ### Witnesses: a concrete case for the hypotheses of each statement, one per clause -/

/-- `ready` with another event list. -/
def withEvents (s : State) (es : List Event) : State := { s with events := es }

/-- A state that the operand checks refuse: LEN as given, no schedule. -/
def unloaded (len : BitVec 9) : State := { State.reset with len := len }

theorem witness_DecodeEncodeAgree :
    (Instr.ctr .slot1 0xFF).wellFormed = true ∧ Instr.build.wellFormed = true ∧
    decode 0x00FF0104 = .ok (.ctr .slot1 0xFF) ∧ decode 0x00000006 = .ok .fcntInc := by decide

/-- OP 7 and 255; each reserved or unused field at its lowest and highest bit; the good words. -/
theorem witness_IllegalAndReservedWordsAreRejected :
    ready.inflight = none ∧
    ([(0x00000007 : Word), 0x000000FF].all fun w => decide ((w.extractLsb' 0 8).toNat > 6)) = true ∧
    ([(0x00000206 : Word), 0x00008004].all fun w =>
      decide ((w.extractLsb' 0 8).toNat ≤ 6 ∧ w.extractLsb' 9 7 ≠ 0)) = true ∧
    ([(0x01000000 : Word), 0x80000004].all fun w =>
      decide ((w.extractLsb' 0 8).toNat ≤ 6 ∧ w.extractLsb' 24 8 ≠ 0)) = true ∧
    ([(0x00000100 : Word), 0x00000105, 0x00000106].all fun w =>
      decide ((w.extractLsb' 0 8).toNat ≤ 6 ∧
      w.getLsbD 8 = true ∧ (w.extractLsb' 0 8).toNat ∉ [1, 2, 3, 4])) = true ∧
    ([(0x00010003 : Word), 0x00800005].all fun w => decide ((w.extractLsb' 0 8).toNat ≤ 6 ∧
      w.extractLsb' 16 8 ≠ 0 ∧ (w.extractLsb' 0 8).toNat ≠ 4)) = true ∧
    ([(0x00000000 : Word), 0x00FF0104, 0x00000101, 0x00000006].all fun w =>
      decide ((w.extractLsb' 0 8).toNat ≤ 6 ∧
      ¬ (w.extractLsb' 9 7 ≠ 0 ∨ w.extractLsb' 24 8 ≠ 0 ∨
        (w.getLsbD 8 = true ∧ (w.extractLsb' 0 8).toNat ∉ [1, 2, 3, 4]) ∨
        (w.extractLsb' 16 8 ≠ 0 ∧ (w.extractLsb' 0 8).toNat ≠ 4)))) = true := by
  refine ⟨by decide, by decide, by decide, by decide, by decide, by decide, by decide⟩

/-- The hypotheses hold of the smallest and the largest word, and of words that the length and schedule
checks reach at the boundary values of LEN. -/
theorem witness_PresentationFollowsTheCheckOrder :
    (0 : Nat) < 2 ^ 32 ∧ 0xFFFFFFFF < 2 ^ 32 ∧ 0x00FF0104 < 2 ^ 32 ∧ 0x00000005 < 2 ^ 32 ∧
    ready.inflight = none ∧ (unloaded 256).inflight = none ∧ (unloaded 257).inflight = none ∧
    (unloaded 242).inflight = none ∧ (unloaded 243).inflight = none ∧
    (256#9).toNat = 256 ∧ (257#9).toNat > 256 ∧ (242#9).toNat = 242 ∧ (243#9).toNat > 242 := by decide

theorem witness_StepRunsTheDecodedCommand :
    ready.presetn = true ∧ ready.inflight = none ∧
    (withEvents ready [.write 0x00C 0x12345605 0b0001]).events = .write 0x00C 0x12345605 0b0001 :: [] ∧
    (0x00C : Offset).toNat / 4 = 3 ∧ (0x00F : Offset).toNat / 4 = 3 ∧ (0b0001 : Strobe) ≠ 0 ∧
    decode (commandWord 0x12345605 0b0001) = .ok .build ∧ Instr.build.wellFormed = true ∧
    (running .build).presetn = true ∧ (running .build).inflight = some .build ∧
    (withEvents (running .build) [.engine]).events = .engine :: [] ∧ (running .build).events = [] := by
  decide

theorem witness_FetchWordIsRunByTheNextStep :
    decodeTableWord 32 0x00000101 = some (.keyexp .slot1) := by decide

/-- Each command with its operands at the limits. -/
theorem witness_CommandWithGoodOperandsIsAccepted :
    ready.inflight = none ∧ operandErrors .nop State.reset = none ∧
    operandErrors (.keyexp .slot0) State.reset = none ∧ operandErrors (.encblk .slot1) ready = none ∧
    operandErrors (.cmac .slot0) { ready with len := 256 } = none ∧
    operandErrors (.ctr .slot1 0xFF) { ready with len := 256 } = none ∧
    operandErrors .build { ready with len := 242 } = none ∧
    operandErrors .fcntInc State.reset = none := by decide

/-- LEN 257 and 511, 243, and 256, 242 and 0 without a schedule. -/
theorem witness_CommandWithBadOperandsIsRejected :
    (unloaded 257).inflight = none ∧ (unloaded 257).len.toNat > 256 ∧
    (unloaded 511).len.toNat > 256 ∧ (unloaded 243).len.toNat > 242 ∧
    ((unloaded 0).slot .slot1).valid = false ∧ (unloaded 256).len.toNat ≤ 256 ∧
    ((unloaded 256).slot .slot0).valid = false ∧ (unloaded 242).len.toNat ≤ 242 ∧
    ((unloaded 242).slot .slot1).valid = false ∧
    Instr.cmac .slot0 ∈ [Instr.cmac .slot0, .ctr .slot0 0] ∧
    Instr.fcntInc ∈ [Instr.nop, .keyexp .slot0, .fcntInc] := by decide

theorem witness_NopCompletes : (running .nop).inflight = some .nop := rfl
theorem witness_KeyexpCompletes : (running (.keyexp .slot0)).inflight = some (.keyexp .slot0) ∧
    (running (.keyexp .slot1)).inflight = some (.keyexp .slot1) := ⟨rfl, rfl⟩
theorem witness_EncblkCompletes : (running (.encblk .slot1)).inflight = some (.encblk .slot1) := rfl
theorem witness_CmacCompletes : (running (.cmac .slot0)).inflight = some (.cmac .slot0) := rfl
theorem witness_FcntIncCompletes : (running .fcntInc).inflight = some .fcntInc := rfl

/-- The first and last byte written, and the bytes next to them. -/
theorem witness_CtrCompletes : (running (.ctr .slot1 0xFF)).inflight = some (.ctr .slot1 0xFF) ∧
    0 < (running (.ctr .slot1 0xFF)).len.toNat ∧ 4 < (running (.ctr .slot1 0xFF)).len.toNat ∧
    (0x1FF < 0x200 ∨ 0x200 + (running (.ctr .slot1 0xFF)).len.toNat ≤ 0x1FF) ∧
    (0x205 < 0x200 ∨ 0x200 + (running (.ctr .slot1 0xFF)).len.toNat ≤ 0x205) := by decide

theorem witness_BuildCompletes : (running .build).inflight = some .build ∧
    0 < (running .build).len.toNat + 12 ∧ 16 < (running .build).len.toNat + 12 ∧
    (0x1FF < 0x200 ∨ 0x200 + ((running .build).len.toNat + 12) ≤ 0x1FF) ∧
    (0x211 < 0x200 ∨ 0x200 + ((running .build).len.toNat + 12) ≤ 0x211) := by decide

theorem witness_FieldMultiplicationAndInverse : (0x01 : Byte) ≠ 0 ∧ (0xFF : Byte) ≠ 0 := by decide
theorem witness_SubBytesSubstitutesEachByte : sbox 0x53 = sbox 0x53 ∧ sbox 0xFF = 0x16 := by decide

theorem witness_MixColumnsMixesEachColumn :
    key0[4 * (3 : Fin 4).val] = 0x09 ∧ key0[4 * (3 : Fin 4).val + 1] = 0xcf ∧
    key0[4 * (3 : Fin 4).val + 2] = 0x4f ∧ key0[4 * (3 : Fin 4).val + 3] = 0x3c ∧
    (∀ r : Fin 4, (Vector.replicate 16 (0xc6 : Byte))[4 * (3 : Fin 4).val + r.val]'(by decide +revert)
      = 0xc6) := by decide

theorem witness_KeyScheduleObeysTheRecurrence :
    (0 : Fin 44).val < 4 ∧ (3 : Fin 44).val < 4 ∧ 4 ≤ (4 : Fin 44).val ∧ 4 ≤ (43 : Fin 44).val ∧
    (4 : Fin 44).val % 4 = 0 ∧ (43 : Fin 44).val % 4 ≠ 0 := by decide

/-- No full block and no last byte; two full blocks and a last one of 1, 15 and 16 bytes. -/
theorem witness_CmacChainsTheBlocks :
    ([] : List Byte).length ≤ 16 ∧ (([] : List Byte) = [] → ([] : List Block) = []) ∧
    ([[0x30], key0.toList.take 15, key0.toList].all fun last =>
      decide (last.length ≤ 16 ∧ (last = [] → [key0, key1] = []))) = true := by decide

theorem witness_KeystreamBlockLayout : 1 ≤ 1 ∧ 1 ≤ 255 ∧ 255 ≤ 255 := by decide

theorem witness_TransformXorsTheKeystream : 0 < key0.toList.length ∧ 15 < key0.toList.length := by
  decide

/-- Two sound states that agree on the operands of BUILD and differ elsewhere. -/
theorem witness_BuildIsDeterministic :
    Inv (running .build) ∧ Inv { running .build with ctrFcnt := 7, blkout := key1, wign := true } ∧
    (running .build).inflight = some .build ∧ (running .build).len.toNat = 5 :=
  ⟨running_inv .build (by decide),
   { running_inv .build (by decide) with schedulesCurrent := by intro k _; cases k <;> rfl }, rfl, rfl⟩

/-- A sound state with BUILD in flight and a step of it. -/
theorem witness_EveryStepKeepsTheInvariant :
    Inv (running .build) ∧ ∃ t, step (running .build) = .next t :=
  ⟨running_inv .build (by decide), _, rfl⟩

/-- The three cases: FCNT kept, FCNT advanced at its largest value, FCNT cleared by a reset. -/
theorem witness_OnlyFcntIncAdvancesTheCounter :
    step State.reset = .next State.reset ∧
    part (step { running .fcntInc with fcnt := 0xFFFF }) (fun t => (t.fcnt, t.fcntWrap)) =
      some (0, true) ∧
    part (step { ready with presetn := false, events := [.presetn true] }) (fun t => t.fcnt) =
      some 0 := ⟨rfl, by decide, by decide⟩

theorem witness_KeylockIsPermanent :
    (withEvents { ready with keylock := true } [.write 0x004 0 0b1111]).keylock = true ∧
    part (step (withEvents { ready with keylock := true } [.write 0x004 0 0b1111])) (fun t => t.keylock)
      = some true ∧
    part (step { ready with keylock := true, presetn := false, events := [.presetn true] })
      (fun t => t.keylock) = some false := by decide

/-- KEYEXP sets the bit; a reset and a key write clear it. -/
theorem witness_OnlyKeyexpAndKeyWritesChangeValid :
    part (step { State.reset with inflight := some (.keyexp .slot1) }) (fun t => t.slot1.valid) =
      some true ∧
    part (step { ready with presetn := false, events := [.presetn true] }) (fun t => t.slot0.valid) =
      some false ∧
    part (step (withEvents ready [.write 0x04C 0 0b1000])) (fun t => (t.slot0.valid, t.slot1.valid)) =
      some (true, false) := by decide

/-- FCNT_INC gives a next state; CTR changes OUT[0] when that byte held something else. -/
theorem witness_CommandsWriteOnlyTheirOutBytes :
    (∃ t, exec .fcntInc (running .fcntInc) = .next t) ∧
    ({ running (.ctr .slot0 0) with mem := hello ++ [(0x200, 0x00)] } : State).outByte 0 = 0x00 ∧
    part (exec (.ctr .slot0 0) { running (.ctr .slot0 0) with mem := hello ++ [(0x200, 0x00)] })
      (fun t => t.outByte 0) = some 0x4d := ⟨⟨_, rfl⟩, by decide, by decide +kernel⟩

theorem witness_AcceptedCommandAlwaysCompletes :
    (running .build).presetn = true ∧ (running .build).inflight = some .build ∧
    noReset (withEvents (running .build) [rd 0x008, cmd .nop]).events := by
  refine ⟨rfl, rfl, ?_⟩
  intro level; cases level <;> decide

theorem witness_HostCannotDisturbTheCommandInFlight :
    (running .build).presetn = true ∧ (running .build).inflight = some .build ∧
    (withEvents (running .build) [wr 0x018 0, rd 0x200, .engine, rd 0x028]).events =
      [wr 0x018 0, rd 0x200] ++ .engine :: [rd 0x028] ∧ busOnly [wr 0x018 0, rd 0x200] := by
  refine ⟨rfl, rfl, rfl, by decide, ?_⟩
  intro level; cases level <;> decide

theorem witness_ReadsRevealNoKey :
    ([(0x030 : Offset), 0x03F, 0x040, 0x04F].all fun addr =>
      decide (0x030 ≤ addr.toNat ∧ addr.toNat < 0x050)) = true := by
  decide

/-- OUT word 4 holds OUT[16], the last byte of the frame in flight: a draw; OUT word 5 and STATUS are
exact. -/
theorem witness_BusReadReturnsTheLocation :
    (running .build).presetn = true ∧
    (withEvents (running .build) [rd 0x210]).events = .read 0x210 :: [] ∧
    (running .build).inflight = some .build ∧
    inResults .build (running .build) (locationAt 0x210) = true ∧
    inResults .build (running .build) (locationAt 0x214) = false ∧
    locationAt 0x008 = .status ∧ inResults .build (running .build) (locationAt 0x008) = false := by
  decide

/-- The three shapes of a reserved offset at both ends. -/
theorem witness_ReservedOffsetsAreInert :
    ([(0x02C : Offset), 0x02F].all fun addr => decide (addr.toNat / 4 * 4 = 0x02C)) = true ∧
    ([(0x070 : Offset), 0x0FF].all fun addr =>
      decide (0x070 ≤ addr.toNat ∧ addr.toNat < 0x100)) = true ∧
    ([(0x300 : Offset), 0xFFF].all fun addr => decide (0x300 ≤ addr.toNat)) = true := by decide

theorem witness_AccessTypesHold :
    ([(0x000 : Offset), 0x003, 0x014, 0x01C, 0x02B].all fun addr =>
      decide (addr.toNat / 4 * 4 ∈ [0x000, 0x014, 0x01C, 0x028])) = true ∧
    ([(0x060 : Offset), 0x06F].all fun addr =>
      decide (0x060 ≤ addr.toNat ∧ addr.toNat < 0x070)) = true ∧
    ([(0x200 : Offset), 0x2FF].all fun addr =>
      decide (0x200 ≤ addr.toNat ∧ addr.toNat < 0x300)) = true ∧
    ([(0x00C : Offset), 0x00F].all fun addr => decide (addr.toNat / 4 * 4 = 0x00C)) = true ∧
    ([(0x030 : Offset), 0x04F].all fun addr =>
      decide (0x030 ≤ addr.toNat ∧ addr.toNat < 0x050)) = true := by decide

theorem witness_StickyBitsClearByWritingOne :
    (running .build).presetn = true ∧
    (withEvents (running .build) [.write 0x008 0x00003000 0b0010]).events =
      .write 0x008 0x00003000 0b0010 :: [] := by decide

theorem witness_WritesWhileBusyAreLost :
    (running .build).presetn = true ∧ (running .build).inflight = some .build ∧
    (withEvents (running .build) [wr 0x00C 0]).events = .write 0x00C 0 0b1111 :: [] ∧
    (0b1000 : Strobe) ≠ 0 ∧
    ([(0x004 : Offset), 0x00F, 0x010, 0x018, 0x023, 0x024].all fun addr =>
      decide (addr.toNat / 4 * 4 ∈ [0x004, 0x00C, 0x010, 0x018, 0x020, 0x024])) = true ∧
    ([(0x030 : Offset), 0x05F].all fun addr =>
      decide (0x030 ≤ addr.toNat ∧ addr.toNat < 0x060)) = true ∧
    ([(0x100 : Offset), 0x1FF].all fun addr =>
      decide (0x100 ≤ addr.toNat ∧ addr.toNat < 0x200)) = true := by decide

theorem witness_CommandWordMasksUnstrobedLanes : ready.busy = false ∧ (0b0001 : Strobe) ≠ 0 := by
  decide

theorem witness_StrobesAndAlignment :
    (0x010 : Offset).toNat / 4 = (0x013 : Offset).toNat / 4 ∧
    (0xFFC : Offset).toNat / 4 = (0xFFF : Offset).toNat / 4 := by decide

/-- Both ends of both key slots; a busy core, a locked one and one that takes the write. -/
theorem witness_KeyWriteEffect :
    locationAt 0x030 = .key .slot0 0 ∧ locationAt 0x03F = .key .slot0 3 ∧
    locationAt 0x040 = .key .slot1 0 ∧ locationAt 0x04F = .key .slot1 3 ∧
    (0b1000 : Strobe) ≠ 0 ∧ (running .nop).busy = true ∧
    ({ ready with keylock := true } : State).keylock = true ∧ ready.busy = false ∧
    ready.keylock = false := by decide

theorem witness_CtrlWriteOnlySetsKeylock :
    (0x004 : Offset).toNat / 4 = 1 ∧ (0x007 : Offset).toNat / 4 = 1 ∧ ready.busy = false := by decide

theorem witness_OperandWritesMergeLanes : ready.busy = false ∧ (0b0010 : Strobe).getLsbD 1 = true := by
  decide

/-- Word 63 of DATA: its last byte, and the byte after it. -/
theorem witness_DataWriteStoresTheStrobedBytes : ready.busy = false ∧
    ((0x1FF - 0x100) / 4 = (63 : Fin 64).val ∧ 0x100 ≤ 0x1FF ∧
      (0b1000 : Strobe).getLsbD (0x1FF % 4) = true) ∧
    ¬ ((0x200 - 0x100) / 4 = (63 : Fin 64).val) := by decide

/-- PRESETn low, with each of the three events to come. -/
theorem witness_ResetReleaseGivesTheResetState :
    ({ ready with presetn := false } : State).presetn = false ∧
    ([Event.engine, wr 0x018 0, .presetn true].all fun e =>
      decide ((withEvents { ready with presetn := false } [e]).events = e :: [])) = true ∧
    0 < 256 ∧ 255 < 256 := by decide

end Sys2Proof.Tests
end

section
/-! The family of the register state: the access types of R22, the command word of R28 and the key writes
of R37 (O49, O53, O54). First the map and bus laws they share, then the statements. -/

namespace Sys2Proof.Machine

/-! ### The register map, from an address to its location -/

/-- Every byte offset of a word-aligned array of `n` words has the location of one of its words (R20, R49). -/
theorem locationAt_of_range (addr : Offset) (base n : Nat) (hb : base % 4 = 0)
    (lo : base ≤ addr.toNat) (hi : addr.toNat < base + 4 * n) :
    ∃ j : Fin n, locationAt addr = locationAt (BitVec.ofNat 12 (base + 4 * j.val)) := by
  refine ⟨⟨(addr.toNat - base) / 4, by omega⟩, locationAt_congr _ _ ?_⟩
  have := addr.isLt
  simp only [BitVec.toNat_ofNat]
  omega

/-- The offsets 0x030 to 0x04F are those of the key registers (R36). -/
theorem locationAt_key_of_range (addr : Offset) (lo : 0x030 ≤ addr.toNat)
    (hi : addr.toNat < 0x050) : ∃ k j, locationAt addr = .key k j := by
  by_cases h : addr.toNat < 0x040
  · obtain ⟨j, hj⟩ := locationAt_of_range addr 0x030 4 rfl lo h
    exact ⟨.slot0, j, hj.trans (locationAt_key0 j)⟩
  · obtain ⟨j, hj⟩ := locationAt_of_range addr 0x040 4 rfl (Nat.le_of_not_lt h) hi
    exact ⟨.slot1, j, hj.trans (locationAt_key1 j)⟩

/-- The offsets 0x060 to 0x06F are those of BLKOUT (R39). -/
theorem locationAt_blkout_of_range (addr : Offset) (lo : 0x060 ≤ addr.toNat)
    (hi : addr.toNat < 0x070) : ∃ j, locationAt addr = .blkout j := by
  obtain ⟨j, hj⟩ := locationAt_of_range addr 0x060 4 rfl lo hi
  exact ⟨j, hj.trans (locationAt_blkout j)⟩

/-- The offsets 0x200 to 0x2FF are those of OUT (R41). -/
theorem locationAt_out_of_range (addr : Offset) (lo : 0x200 ≤ addr.toNat)
    (hi : addr.toNat < 0x300) : ∃ j, locationAt addr = .out j := by
  obtain ⟨j, hj⟩ := locationAt_of_range addr 0x200 64 rfl lo hi
  exact ⟨j, hj.trans (locationAt_out j)⟩

/-- ID, FRAME_LEN, FCNT and MIC, the single-word read-only registers, ignore writes (R20, R22). -/
theorem ignoresWrites_of_readOnly_word (addr : Offset)
    (h : addr.toNat / 4 * 4 ∈ [0x000, 0x014, 0x01C, 0x028]) :
    (locationAt addr).ignoresWrites = true := by
  have hw : addr.toNat / 4 = 0 ∨ addr.toNat / 4 = 5 ∨ addr.toNat / 4 = 7 ∨ addr.toNat / 4 = 10 := by
    simp only [List.mem_cons, List.not_mem_nil, or_false] at h
    omega
  unfold locationAt
  rcases hw with hw | hw | hw | hw <;> rw [hw] <;> rfl

/-! ### Bus transactions that have no effect or read zero -/

/-- A write with no strobe has no effect at all (R37, R46). -/
@[simp] theorem busWrite_unstrobed (addr : Offset) (v : Word) (s : State) :
    busWrite addr v 0 s = .done s := rfl

/-- A write to a location that ignores writes has no effect, busy or not (R22). -/
theorem busWrite_ignored (addr : Offset) (v : Word) (strb : Strobe) (s : State)
    (h : (locationAt addr).ignoresWrites = true) : busWrite addr v strb s = .done s := by
  have hl : locationAt addr ≠ .status := by
    intro hl
    simp [hl, Location.ignoresWrites] at h
  simp only [busWrite, if_neg hl, h, if_true, ite_self]

/-- Outside the results of every command, a read returns what the location holds, busy or not (R45). -/
theorem busRead_of_not_result (addr : Offset) (s : State)
    (h : ∀ i, inResults i s (locationAt addr) = false) :
    busRead addr s = { s with prdata := s.readLocation (locationAt addr) } := by
  have hd : s.readIsDraw (locationAt addr) = false := by
    unfold State.readIsDraw
    split
    · exact h _
    · rfl
  simp only [busRead, hd, Bool.false_eq_true, if_false]

/-- CMD has no storage and reads 0 (R28). -/
theorem busRead_cmd (addr : Offset) (s : State) (h : locationAt addr = .cmd) :
    busRead addr s = { s with prdata := 0 } := by
  rw [busRead_of_not_result addr s (fun _ => by rw [h]; rfl), h]
  rfl

/-- The key registers are write-only and read 0 (R22, R36). -/
theorem busRead_key (addr : Offset) (s : State) (k : Slot) (j : Fin 4)
    (h : locationAt addr = .key k j) : busRead addr s = { s with prdata := 0 } := by
  rw [busRead_of_not_result addr s (fun _ => by rw [h]; rfl), h]
  rfl

/-! ### Writes to STATUS, CMD and the key registers -/

/-- A write to STATUS, strobed or not, changes only the two sticky bits and sets neither (R22, R27). -/
theorem busWrite_status_sticky (addr : Offset) (v : Word) (strb : Strobe) (s : State)
    (h : locationAt addr = .status) :
    ∃ a b, busWrite addr v strb s = .done { s with fcntWrap := a, wign := b } ∧
      (a = true → s.fcntWrap = true) ∧ (b = true → s.wign = true) := by
  by_cases hs : strb = 0
  · subst hs
    exact ⟨s.fcntWrap, s.wign, busWrite_unstrobed addr v s, id, id⟩
  · refine ⟨_, _, busWrite_status addr v strb s hs h, fun ha => ?_, fun hb => ?_⟩
    · exact (Bool.and_eq_true_iff.1 ha).1
    · exact (Bool.and_eq_true_iff.1 hb).1

/-- An idle core's strobed write to CMD presents the masked word (R28, R46). -/
theorem busWrite_cmd_idle (addr : Offset) (v : Word) (strb : Strobe) (s : State)
    (h : locationAt addr = .cmd) (hs : strb ≠ 0) (hb : s.busy = false) :
    busWrite addr v strb s = .present (commandWord v strb) := by
  rw [busWrite_idle addr v strb s hs (by simp [h]) (by rw [h]; rfl) hb, h]
  rfl

/-- Each byte lane of the word that a CMD write presents (R28). -/
theorem lane_commandWord (v : Word) (strb : Strobe) (m : Nat) (h : m < 4) :
    lane (commandWord v strb) m = if strb.getLsbD m = true then lane v m else 0x00 := by
  have hz : lane 0 m = 0x00 := by simp [lane]
  rw [commandWord, lane_mergeLanes 0 v strb m h, hz]

/-- A busy core loses a strobed key write (R37). -/
theorem busWrite_key_busy (addr : Offset) (v : Word) (strb : Strobe) (s : State) (k : Slot)
    (j : Fin 4) (h : locationAt addr = .key k j) (hs : strb ≠ 0) (hb : s.busy = true) :
    busWrite addr v strb s = .done s.lostWrite :=
  busWrite_busy addr v strb s hs (by simp [h]) (by rw [h]; rfl) hb

/-- An idle core's strobed key write is decided by KEYLOCK, in `writeKey` (R37). -/
theorem busWrite_key_idle (addr : Offset) (v : Word) (strb : Strobe) (s : State) (k : Slot)
    (j : Fin 4) (h : locationAt addr = .key k j) (hs : strb ≠ 0) (hb : s.busy = false) :
    busWrite addr v strb s = .done (writeKey k j v strb s) := by
  rw [busWrite_idle addr v strb s hs (by simp [h]) (by rw [h]; rfl) hb, h]
  rfl

/-- With KEYLOCK 1 a key write is lost (R37). -/
theorem writeKey_locked (k : Slot) (j : Fin 4) (v : Word) (strb : Strobe) (s : State)
    (h : s.keylock = true) : writeKey k j v strb s = s.lostWrite := if_pos h

/-- With KEYLOCK 0 a key write replaces the strobed bytes and makes the schedule invalid (R37). -/
theorem writeKey_unlocked (k : Slot) (j : Fin 4) (v : Word) (strb : Strobe) (s : State)
    (h : s.keylock = false) : writeKey k j v strb s =
      s.setSlot k { s.slot k with key := blockWithWord (s.slot k).key j v strb, valid := false } := by
  simp only [writeKey, h, Bool.false_eq_true, if_false]

/-! ### The statements -/

/-- Settles O49: each address lies at a location whose access type decides the transaction. -/
theorem accessTypesHold : Obligations.AccessTypesHold := by
  intro s v strb
  refine ⟨fun addr h => busWrite_ignored addr v strb s ?_,
    busWrite_status_sticky 0x008 v strb s rfl, fun addr h => ?_⟩
  · rcases h with hword | ⟨lo, hi⟩ | ⟨lo, hi⟩
    · exact ignoresWrites_of_readOnly_word addr hword
    · obtain ⟨j, hj⟩ := locationAt_blkout_of_range addr lo hi
      rw [hj]; rfl
    · obtain ⟨j, hj⟩ := locationAt_out_of_range addr lo hi
      rw [hj]; rfl
  · rcases h with hcmd | ⟨lo, hi⟩
    · have hw : addr.toNat / 4 = 3 := by omega
      exact busRead_cmd addr s (locationAt_congr addr 0x00C hw)
    · obtain ⟨k, j, hj⟩ := locationAt_key_of_range addr lo hi
      exact busRead_key addr s k j hj

/-- Settles O53: the lanes of the presented word are those of a merge into the zero word. -/
theorem commandWordMasksUnstrobedLanes : Obligations.CommandWordMasksUnstrobedLanes := by
  intro s v strb
  refine ⟨fun hb hs => busWrite_cmd_idle 0x00C v strb s rfl hs hb, fun hs => ?_,
    fun m => lane_commandWord v strb m.val m.isLt, busRead_cmd 0x00C s rfl⟩
  rw [hs, busWrite_unstrobed]

/-- Settles O54: R37's cases in order, no strobe, BUSY, KEYLOCK, and the key write itself. -/
theorem keyWriteEffect : Obligations.KeyWriteEffect := by
  intro s addr v strb k j hl
  refine ⟨fun hs => ?_, fun hs hlost => ?_, fun hs hb hk => ?_⟩
  · rw [hs, busWrite_unstrobed]
  · cases hb : s.busy with
    | true => exact busWrite_key_busy addr v strb s k j hl hs hb
    | false =>
      have hk : s.keylock = true := hlost.resolve_left (by simp [hb])
      rw [busWrite_key_idle addr v strb s k j hl hs hb, writeKey_locked k j v strb s hk]
      rfl
  · refine ⟨blockWithWord (s.slot k).key j v strb, ?_, fun i => ?_⟩
    · rw [busWrite_key_idle addr v strb s k j hl hs hb, writeKey_unlocked k j v strb s hk]
    · exact blockWithWord_getElem (s.slot k).key j v strb i.val i.isLt

end Sys2Proof.Machine
end

section
/-! The family of the encoding: which words R64 rejects, and which command every other word is (O3). First
the laws of the fields and of the decoder, then the statement. -/

namespace Sys2Proof

/-! ### The fields of a word -/

/-- R64 (b): a 1 in a reserved field, or in a field that the opcode does not use. -/
def CommandFields.HasStrayBit (f : CommandFields) : Prop :=
  f.reservedLow ≠ 0 ∨ f.reservedHigh ≠ 0 ∨ (f.ksel = true ∧ f.op.toNat ∉ [1, 2, 3, 4]) ∨
    (f.dir ≠ 0 ∧ f.op.toNat ≠ 4)

theorem CommandFields.not_hasStrayBit_iff (f : CommandFields) : ¬ f.HasStrayBit ↔
    f.reservedLow = 0 ∧ f.reservedHigh = 0 ∧ (f.ksel = true → f.op.toNat ∈ [1, 2, 3, 4]) ∧
      (f.dir ≠ 0 → f.op.toNat = 4) := by
  simp only [HasStrayBit, not_or, not_and, not_not]

/-- A bit of a word, as a field one bit wide. -/
theorem ofBool_getLsbD_eq_extractLsb' (w : Word) (n : Nat) :
    BitVec.ofBool (w.getLsbD n) = w.extractLsb' n 1 := by
  ext i hi
  simp [show i = 0 by omega]

/-- A word is put together again from its five fields, each beginning where the one below it ends (R60). -/
@[simp] theorem wordOfFields_fieldsOfWord (w : Word) : wordOfFields (fieldsOfWord w) = w := by
  simp only [wordOfFields, fieldsOfWord, ofBool_getLsbD_eq_extractLsb']
  iterate 4 rw [BitVec.extractLsb'_append_extractLsb'_eq_extractLsb' (by rfl)]
  exact BitVec.extractLsb'_eq_self

@[simp] theorem ksel_slotOfKsel (b : Bool) : (slotOfKsel b).ksel = b := by cases b <;> rfl

theorem mem_one_to_four_iff (n : Nat) : n ∈ [1, 2, 3, 4] ↔ 1 ≤ n ∧ n ≤ 4 := by
  simp only [List.mem_cons, List.not_mem_nil, or_false]
  omega

/-- A legal opcode is one of the seven of R62. -/
theorem op_cases (op : Byte) (h : op.toNat ≤ 6) :
    op = 0 ∨ op = 1 ∨ op = 2 ∨ op = 3 ∨ op = 4 ∨ op = 5 ∨ op = 6 := by
  bv_omega

/-- With a legal opcode and no stray bit, the fields are those of the command they stand for (R62, R63):
for each of the seven opcodes, KSEL and DIR are 0 where the command has no operand for them. -/
theorem fields_commandOfOp (f : CommandFields) (hop : f.op.toNat ≤ 6) (hf : ¬ f.HasStrayBit) :
    (commandOfOp f.op (slotOfKsel f.ksel) f.dir).fields = f := by
  obtain ⟨hlow, hhigh, hksel, hdir⟩ := f.not_hasStrayBit_iff.1 hf
  obtain ⟨op, ksel, low, dir, high⟩ := f
  obtain rfl : low = 0 := hlow
  obtain rfl : high = 0 := hhigh
  rcases op_cases op hop with rfl | rfl | rfl | rfl | rfl | rfl | rfl <;>
    simp_all [commandOfOp, Instr.fields]

/-! ### The decoder -/

theorem decode_of_op_illegal (w : Word) (h : (fieldsOfWord w).op.toNat > 6) :
    decode w = .error .illegalOp := if_pos h

/-- A stray bit fails one of the decoder's three checks of the fields (R64 (b), R65). -/
theorem decode_of_hasStrayBit (w : Word) (hop : (fieldsOfWord w).op.toNat ≤ 6)
    (h : (fieldsOfWord w).HasStrayBit) : decode w = .error .reservedField := by
  simp only [decode, if_neg (Nat.not_lt.2 hop), ← mem_one_to_four_iff]
  split_ifs with hreserved hksel hdir
  · rfl
  · rfl
  · rfl
  · rcases h with h | h | ⟨hk, ho⟩ | ⟨hd, ho⟩
    · exact absurd (.inl h) hreserved
    · exact absurd (.inr h) hreserved
    · exact absurd ⟨ho, hk⟩ hksel
    · exact absurd ⟨ho, hd⟩ hdir

/-- With a legal opcode and no stray bit, the word is that of the command it decodes to (R63). -/
theorem decode_of_command (w : Word) (hop : (fieldsOfWord w).op.toNat ≤ 6)
    (h : ¬ (fieldsOfWord w).HasStrayBit) : ∃ i, decode w = .ok i ∧ encode i = w := by
  obtain ⟨hlow, hhigh, hksel, hdir⟩ := (fieldsOfWord w).not_hasStrayBit_iff.1 h
  refine ⟨commandOfOp (fieldsOfWord w).op (slotOfKsel (fieldsOfWord w).ksel) (fieldsOfWord w).dir,
    ?_, ?_⟩
  · simp only [decode, ← mem_one_to_four_iff]
    rw [if_neg (Nat.not_lt.2 hop), if_neg (not_or.2 ⟨not_not.2 hlow, not_not.2 hhigh⟩),
      if_neg (fun c => c.1 (hksel c.2)), if_neg (fun c => c.1 (hdir c.2))]
  · rw [encode, fields_commandOfOp _ hop h, wordOfFields_fieldsOfWord]

/-- The word of every command agrees with a row of the table (R63). -/
theorem encode_covered (i : Instr) : ∃ r ∈ commandTable, r.covers (encode i) = true :=
  match i with
  | .nop => Laws.EncodingRow.nop.1
  | .keyexp k => (Laws.EncodingRow.keyexp k).1
  | .encblk k => (Laws.EncodingRow.encblk k).1
  | .cmac k => (Laws.EncodingRow.cmac k).1
  | .ctr k d => (Laws.EncodingRow.ctr k d).1
  | .build => Laws.EncodingRow.build.1
  | .fcntInc => Laws.EncodingRow.fcntInc.1

end Sys2Proof

namespace Sys2Proof.Machine

/-! ### The presentation -/

/-- A word that is no command is rejected with the code of its decode error (R64, R67). -/
theorem present_of_error (w : Word) (e : DecodeError) (s : State) (h : decode w = .error e) :
    present w s = .next (s.reject (errCodeOf e)) := by
  rw [present, h]

/-- A word that is a command is executed (R66). -/
theorem present_of_ok (w : Word) (i : Instr) (s : State) (h : decode w = .ok i) :
    present w s = exec i s := by
  rw [present, h]

/-! ### The statement -/

/-- Settles O3: R64's three kinds of words are the three outcomes of the decoder. -/
theorem illegalAndReservedWordsAreRejected : Obligations.IllegalAndReservedWordsAreRejected := by
  intro w s _
  refine ⟨fun hop => ?_, fun hop hbad => ?_, fun hop hgood => ?_⟩
  · exact present_of_error w .illegalOp s (decode_of_op_illegal w hop)
  · exact present_of_error w .reservedField s (decode_of_hasStrayBit w hop hbad)
  · obtain ⟨i, hdecode, rfl⟩ := decode_of_command w hop hgood
    exact ⟨i, rfl, present_of_ok _ i s hdecode, encode_covered i⟩

end Sys2Proof.Machine
end

section
/-! The family of the AES core: the substitution box of R77 to R79, the round transformations of R80 to R82,
the key schedule of R83 to R86 and the cipher of R87 (O17, O19 to O24). The laws of each operation stand
before the statements. -/

namespace Sys2Proof.Machine

/-! ### The field and the substitution box -/

/-- {02} • b is one doubling (R76). -/
theorem gfMul_two (b : Byte) : gfMul 2 b = xtime b := by
  simp [gfMul, List.range_succ, Nat.repeat]

/-- {03} • b is a doubling and b itself (R76). -/
theorem gfMul_three (b : Byte) : gfMul 3 b = times3 b := by
  simp [gfMul, List.range_succ, Nat.repeat, times3, BitVec.xor_comm]

/-- A rotation to the right moves bit i + r, counted modulo 8, to bit i. -/
theorem getLsbD_rotateRight_byte (b : Byte) (r i : Nat) (hr : r < 8) (hi : i < 8) :
    (b.rotateRight r).getLsbD i = b.getLsbD ((i + r) % 8) := by
  rw [BitVec.getLsbD_rotateRight_of_lt hr]
  by_cases h : i < 8 - r
  · simp [h, show (i + r) % 8 = r + i by omega]
  · simp [h, hi, show (i + r) % 8 = i - (8 - r) by omega]

/-- The sum of the five bits that R77 names and the bit of 0x63. -/
theorem affine_getLsbD (b : Byte) (i : Nat) (hi : i < 8) :
    (affine b).getLsbD i =
      (b.getLsbD i ^^ b.getLsbD ((i + 4) % 8) ^^ b.getLsbD ((i + 5) % 8) ^^
        b.getLsbD ((i + 6) % 8) ^^ b.getLsbD ((i + 7) % 8) ^^ (0x63 : Byte).getLsbD i) := by
  simp only [affine, BitVec.getLsbD_xor, getLsbD_rotateRight_byte, hi, Nat.reduceLT]

/-- R78's table is R77's map: the table is a literal, so its 256 entries are computed one by one. -/
theorem sbox_eq_affine_gfInv : ∀ x : Byte, sbox x = affine (gfInv x) := by decide +kernel

/-- The set of the numbers of a list, as the number whose bit n says that n is one of them. -/
def bitSet (l : List Nat) : Nat := l.foldr (fun n set => 2 ^ n ||| set) 0

theorem testBit_bitSet (l : List Nat) (n : Nat) : (bitSet l).testBit n = decide (n ∈ l) := by
  induction l with
  | nil => simp [bitSet]
  | cons a l ih =>
    rw [bitSet, List.foldr_cons, ← bitSet, Nat.testBit_or, ih, Nat.testBit_two_pow]
    simp [eq_comm]

/-- What the bytes 0x00 to 0xFF are substituted by, as numbers. -/
def sboxValues : List Nat := (List.range 256).map fun n => (sbox (BitVec.ofNat 8 n)).toNat

/-- As one set, they are all 256 bytes. -/
theorem bitSet_sboxValues : bitSet sboxValues = 2 ^ 256 - 1 := by decide +kernel

theorem sbox_surjective : Function.Surjective sbox := by
  intro y
  have hbit := testBit_bitSet sboxValues y.toNat
  rw [bitSet_sboxValues, Nat.testBit_two_pow_sub_one, decide_eq_true y.isLt] at hbit
  obtain ⟨n, -, hn⟩ := List.mem_map.1 (of_decide_eq_true hbit.symm)
  exact ⟨BitVec.ofNat 8 n, BitVec.eq_of_toNat_eq hn⟩

/-- There are as many bytes in as out, so a substitution that reaches every byte is a permutation (R79). -/
theorem sbox_injective : Function.Injective sbox :=
  Finite.injective_iff_surjective.2 sbox_surjective

/-! ### The round transformations -/

theorem mixColumns_getElem (s : Block) (c r : Nat) (hc : c < 4) (hr : r < 4) :
    (mixColumns s)[4 * c + r] = mixByte r s[4 * c] s[4 * c + 1] s[4 * c + 2] s[4 * c + 3] := by
  simp [mixColumns, show (4 * c + r) / 4 = c by omega, Nat.mod_eq_of_lt hr]

/-- In every row the coefficients add up to {02} + {03} + {01} + {01} = {01} (R81). -/
theorem mixByte_self (r : Nat) (b : Byte) : mixByte r b b b b = b := by
  have hsum : xtime b ^^^ times3 b = b := by simp [times3]
  match r with
  | 0 => simp [mixByte, hsum]
  | 1 => simp [mixByte, BitVec.xor_assoc, hsum]
  | 2 => simp [mixByte, hsum]
  | _ + 3 => simp [mixByte, BitVec.xor_comm (times3 b), hsum]

@[simp] theorem addRoundKey_getElem (s rk : Block) (i : Nat) (h : i < 16) :
    (addRoundKey s rk)[i] = s[i] ^^^ rk[i] := xorBlock_getElem s rk i h

/-! ### The key schedule -/

@[simp] theorem xorKeyWord_getElem (a b : KeyWord) (m : Nat) (h : m < 4) :
    (xorKeyWord a b)[m] = a[m] ^^^ b[m] :=
  match m with
  | 0 | 1 | 2 | 3 => rfl

@[simp] theorem subWord_getElem (t : KeyWord) (m : Nat) (h : m < 4) :
    (subWord t)[m] = sbox t[m] := by simp [subWord]

@[simp] theorem rotWord_getElem (t : KeyWord) (m : Nat) (h : m < 4) :
    (rotWord t)[m] = t[(m + 1) % 4] :=
  match m with
  | 0 | 1 | 2 | 3 => rfl

/-- The word of a round constant holds it in byte 0 (R83). -/
theorem rconWord_getElem (x : Byte) (m : Nat) (h : m < 4) :
    (#v[x, 0, 0, 0] : KeyWord)[m] = if m = 0 then x else 0x00 :=
  match m with
  | 0 | 1 | 2 | 3 => rfl

/-- Byte m of the word that R85 adds. -/
theorem keyTemp_getElem (i : Nat) (t : KeyWord) (m : Nat) (h : m < 4) :
    (keyTemp i t)[m] =
      if i % 4 = 0 then sbox t[(m + 1) % 4] ^^^ (if m = 0 then rcon (i / 4) else 0x00) else t[m] := by
  unfold keyTemp
  split
  · rw [xorKeyWord_getElem _ _ m h, subWord_getElem _ m h, rotWord_getElem _ m h,
      rconWord_getElem _ m h]
  · rfl

theorem keyWordOfKey_getElem (key : Block) (i : Fin 4) (m : Nat) (h : m < 4) :
    (keyWordOfKey key i)[m] = key[4 * i.val + m] :=
  match m with
  | 0 | 1 | 2 | 3 => rfl

/-- The first four words are those of the key (R85). -/
theorem roundWords_zero_getElem (key : Block) (i m : Nat) (hi : i < 4) (hm : m < 4) :
    (roundWords key 0)[i][m] = key[4 * i + m] := by
  simp [roundWords, keyWordOfKey_getElem key ⟨i, hi⟩ m hm]

/-- The first of the next four words is made from the last of the four before. -/
theorem nextRoundWords_zero (r : Nat) (w : RoundWords) :
    (nextRoundWords r w)[0] = xorKeyWord w[0] (keyTemp (4 * r) w[3]) := rfl

/-- Each later one is made from the one before it. -/
theorem nextRoundWords_succ (r : Nat) (w : RoundWords) (j : Nat) (h : j + 1 < 4) :
    (nextRoundWords r w)[j + 1] =
      xorKeyWord w[j + 1] (keyTemp (4 * r + (j + 1)) (nextRoundWords r w)[j]) :=
  match j with
  | 0 | 1 | 2 => rfl

/-- The word w[i] of KeyExpansion (R85): word i mod 4 of round i div 4. -/
def keyWord (key : Block) (i : Nat) : KeyWord := (roundWords key (i / 4))[i % 4]

theorem keyWord_eq_roundWords (key : Block) (r j : Nat) (h : j < 4) :
    keyWord key (4 * r + j) = (roundWords key r)[j] := by
  simp [keyWord, show (4 * r + j) / 4 = r by omega, Nat.mod_eq_of_lt h]

/-- R85's recurrence between words: at the first word of a round the previous word is the last one of the
round before, elsewhere it is in the same round. -/
theorem keyWord_add_four (key : Block) (i : Nat) :
    keyWord key (i + 4) =
      xorKeyWord (keyWord key i) (keyTemp (i + 4) (keyWord key (i + 3))) := by
  obtain ⟨r, j, hj, rfl⟩ : ∃ r j, j < 4 ∧ i = 4 * r + j :=
    ⟨i / 4, i % 4, Nat.mod_lt _ (by omega), by omega⟩
  cases j with
  | zero =>
    rw [show 4 * r + 0 + 4 = 4 * (r + 1) + 0 by omega, show 4 * r + 0 + 3 = 4 * r + 3 by omega,
      keyWord_eq_roundWords key r 0 hj, keyWord_eq_roundWords key r 3 (by omega),
      keyWord_eq_roundWords key (r + 1) 0 hj]
    exact nextRoundWords_zero (r + 1) (roundWords key r)
  | succ j =>
    rw [show 4 * r + (j + 1) + 4 = 4 * (r + 1) + (j + 1) by omega,
      show 4 * r + (j + 1) + 3 = 4 * (r + 1) + j by omega,
      keyWord_eq_roundWords key r (j + 1) hj, keyWord_eq_roundWords key (r + 1) j (by omega),
      keyWord_eq_roundWords key (r + 1) (j + 1) hj]
    exact nextRoundWords_succ (r + 1) (roundWords key r) j hj

/-- Byte 4j + m of a round key is byte m of its word j (R86). -/
theorem blockOfWords_getElem (w : RoundWords) (j m : Nat) (hj : j < 4) (hm : m < 4) :
    (blockOfWords w)[4 * j + m] = w[j][m] := by
  simp [blockOfWords, show (4 * j + m) / 4 = j by omega, Nat.mod_eq_of_lt hm]

/-- Byte m of word i, found in the schedule (R86). -/
theorem keyExpansion_byte (key : Block) (i m : Nat) (hi : i < 44) (hm : m < 4) :
    (keyExpansion key)[i / 4][4 * (i % 4) + m] = (keyWord key i)[m] := by
  rw [keyExpansion_getElem, blockOfWords_getElem _ _ _ (by omega) hm, keyWord]

/-- Round key 0 is the key (R85, R86). -/
theorem keyExpansion_zero (key : Block) : (keyExpansion key)[0] = key := by
  ext i hi
  obtain ⟨j, m, hj, hm, rfl⟩ : ∃ j m, j < 4 ∧ m < 4 ∧ i = 4 * j + m :=
    ⟨i / 4, i % 4, by omega, Nat.mod_lt _ (by omega), by omega⟩
  rw [keyExpansion_getElem, blockOfWords_getElem _ _ _ hj hm, roundWords_zero_getElem key j m hj hm]

/-! ### The statements -/

/-- Settles O17: the table is checked entry by entry, the map bit by bit. -/
theorem sboxTableIsAffineOfInverse : Obligations.SboxTableIsAffineOfInverse :=
  ⟨sbox_eq_affine_gfInv, fun b i => affine_getLsbD b i.val i.isLt⟩

/-- Settles O19: the table reaches every byte, so no two bytes share an entry. -/
theorem subBytesSubstitutesEachByte : Obligations.SubBytesSubstitutesEachByte :=
  ⟨fun s i => subBytes_getElem s i.val i.isLt, fun _ _ h => sbox_injective h, by decide, by decide,
    by decide, by
    simp only [subBytes, Vector.map_mk, List.map_toArray, List.map]
    decide⟩

/-- Settles O20: column and row of byte r + 4c are c and r. -/
theorem shiftRowsRotatesTheRows : Obligations.ShiftRowsRotatesTheRows := by
  have row (s : Block) (c r : Fin 4) :
      (shiftRows s)[r.val + 4 * c.val] = s[r.val + 4 * ((c.val + r.val) % 4)] := by
    rw [shiftRows_getElem]
    exact getElem_congr_idx (by omega)
  refine ⟨fun s c => ⟨row s c, ?_⟩, by decide⟩
  simpa [Nat.mod_eq_of_lt c.isLt] using row s c 0

/-- Settles O21: a new column is `mixByte` of the old one, and {02} and {03} are R76's multiplications. -/
theorem mixColumnsMixesEachColumn : Obligations.MixColumnsMixesEachColumn := by
  refine ⟨?_, fun s c b hb r => ?_, by decide⟩
  · rintro s c a0 a1 a2 a3 rfl rfl rfl rfl
    simp only [gfMul_two, gfMul_three]
    have row (r : Nat) (hr : r < 4) := mixColumns_getElem s c.val r c.isLt hr
    exact ⟨row 0 (by omega), row 1 (by omega), row 2 (by omega), row 3 (by omega)⟩
  · rw [mixColumns_getElem s c.val r.val c.isLt r.isLt]
    have hcol (r : Nat) (hr : r < 4) : s[4 * c.val + r] = b := hb ⟨r, hr⟩
    have h0 : s[4 * c.val] = b := hcol 0 (by omega)
    rw [h0, hcol 1 (by omega), hcol 2 (by omega), hcol 3 (by omega), mixByte_self]

/-- Settles O22: adding the same byte twice cancels. -/
theorem addRoundKeyIsItsOwnInverse : Obligations.AddRoundKeyIsItsOwnInverse := by
  refine fun s rk => ⟨fun i => addRoundKey_getElem s rk i.val i.isLt, ?_⟩
  ext i hi
  simp

/-- Settles O23: the recurrence between words, read byte by byte in the round keys. -/
theorem keyScheduleObeysTheRecurrence : Obligations.KeyScheduleObeysTheRecurrence := by
  intro key w
  have hw (i : Fin 44) (m : Fin 4) : w i m = (keyWord key i.val)[m.val] :=
    keyExpansion_byte key i.val m.val i.isLt m.isLt
  refine ⟨fun i m hi => ?_, fun i m hi => ?_, keyExpansion_zero key, by decide, rfl, by decide⟩
  · have hword : keyWord key i.val = (roundWords key 0)[i.val] := by
      simpa using keyWord_eq_roundWords key 0 i.val hi
    rw [hw, hword, roundWords_zero_getElem key i.val m.val hi m.isLt]
  · have hrec := keyWord_add_four key (i.val - 4)
    rw [Nat.sub_add_cancel hi, show i.val - 4 + 3 = i.val - 1 by omega] at hrec
    simp only [hw, hrec, xorKeyWord_getElem, keyTemp_getElem]

/-- Settles O24: the nine full rounds, written out in the model, are the fold over their indices. -/
theorem cipherRunsTheRoundsInOrder : Obligations.CipherRunsTheRoundsInOrder := by
  intro rks input
  have hrounds : List.finRange 9 = [0, 1, 2, 3, 4, 5, 6, 7, 8] := by decide
  rw [hrounds]
  rfl

end Sys2Proof.Machine
end

section
/-! The family of CMAC: the one-bit shift of R92, read as a number, and the subkeys of R93. A block is read
byte by byte from byte 0 on; what the bytes read so far lack of the shift is the top bit of the next one. -/

namespace Sys2Proof.Machine

/-! ### Bytes as a number, the first the most significant -/

/-- The number that the bytes write in base 256, the first byte the most significant. -/
def bigEndian (bs : List Byte) : Nat := bs.foldl (fun n y => 256 * n + y.toNat) 0

@[simp] theorem bigEndian_nil : bigEndian [] = 0 := rfl

@[simp] theorem bigEndian_concat (bs : List Byte) (y : Byte) :
    bigEndian (bs ++ [y]) = 256 * bigEndian bs + y.toNat := by simp [bigEndian]

theorem bigEndian_take_succ (b : Block) (j : Nat) (h : j < 16) :
    bigEndian (b.toList.take (j + 1)) = 256 * bigEndian (b.toList.take j) + b[j].toNat := by
  rw [List.take_succ_eq_append_getElem (by simpa using h), bigEndian_concat, Vector.getElem_toList]

/-! ### The shift -/

/-- The bit that byte `i` gives to the byte before it when the block is shifted; 0 past the last byte. -/
def shiftCarry (b : Block) (i : Nat) : Byte := if h : i < 16 then b[i] >>> 7 else 0

theorem shiftCarry_toNat (b : Block) (i : Nat) (h : i < 16) :
    (shiftCarry b i).toNat = b[i].toNat / 128 := by
  simp [shiftCarry, h, Nat.shiftRight_eq_div_pow]

theorem shiftCarry_lt_two (b : Block) (i : Nat) : (shiftCarry b i).toNat < 2 := by
  by_cases h : i < 16
  · rw [shiftCarry_toNat b i h]
    omega
  · simp [shiftCarry, h]

theorem shiftLeftBlock_getElem (b : Block) (i : Nat) (h : i < 16) :
    (shiftLeftBlock b)[i] = (b[i] <<< 1) ||| shiftCarry b (i + 1) := by
  by_cases hi : i < 15
  · simp [shiftLeftBlock, shiftCarry, hi, show i + 1 < 16 by omega]
  · obtain rfl : i = 15 := by omega
    simp [shiftLeftBlock, shiftCarry]

/-- Shifting a byte leaves bit 0 free for the carry, so the bitwise OR is a sum. -/
theorem toNat_shiftLeft_one_or (x c : Byte) (hc : c.toNat < 2) :
    ((x <<< 1) ||| c).toNat = 2 * x.toNat % 256 + c.toNat := by
  have heven : 2 * x.toNat % 256 = 2 ^ 1 * (x.toNat % 128) := by omega
  calc ((x <<< 1) ||| c).toNat
      = 2 ^ 1 * (x.toNat % 128) ||| c.toNat := by
        rw [BitVec.toNat_or, BitVec.toNat_shiftLeft, Nat.shiftLeft_eq, ← heven, Nat.mul_comm]
    _ = 2 * x.toNat % 256 + c.toNat := by
        rw [← Nat.two_pow_add_eq_or_of_lt (by omega), heven]

/-- Appending a byte below the modulus and below the number is the same. -/
theorem append_byte_mod (n m r : Nat) (hr : r < 256) :
    (256 * n + r) % (256 * m) = 256 * (n % m) + r := by
  rw [Nat.mod_mul, show (256 * n + r) % 256 = r by omega, show (256 * n + r) / 256 = n by omega,
    Nat.add_comm]

/-- The first `j` bytes of the shifted block are the doubled number of the first `j` bytes with the carry of
the next byte added and the bit shifted out dropped. -/
theorem bigEndian_take_shiftLeftBlock (b : Block) (j : Nat) (h : j ≤ 16) :
    bigEndian ((shiftLeftBlock b).toList.take j) =
      (2 * bigEndian (b.toList.take j) + (shiftCarry b j).toNat) % 256 ^ j := by
  induction j with
  | zero => simp [Nat.mod_one]
  | succ j ih =>
    have hcarry := shiftCarry_toNat b j h
    have hnext := shiftCarry_lt_two b (j + 1)
    have hbyte : 2 * b[j].toNat = 256 * (shiftCarry b j).toNat + 2 * b[j].toNat % 256 := by omega
    rw [bigEndian_take_succ _ j h, bigEndian_take_succ _ j h, ih (by omega), shiftLeftBlock_getElem,
      toNat_shiftLeft_one_or _ _ hnext, Nat.pow_succ', ← append_byte_mod _ _ _ (by omega)]
    congr 1
    omega

theorem bigEndian_shiftLeftBlock (b : Block) :
    bigEndian (shiftLeftBlock b).toList = 2 * bigEndian b.toList % 2 ^ 128 := by
  have hlength (x : Block) : x.toList.take 16 = x.toList := List.take_of_length_le (by simp)
  have hcarry : (shiftCarry b 16).toNat = 0 := rfl
  have hmodulus : 256 ^ 16 = 2 ^ 128 := by norm_num
  simpa only [hlength, hcarry, hmodulus, Nat.add_zero] using bigEndian_take_shiftLeftBlock b 16 le_rfl

/-! ### The subkeys -/

theorem nextSubkey_getElem (b : Block) (i : Nat) (h : i < 15) :
    (nextSubkey b)[i] = (shiftLeftBlock b)[i] := by
  unfold nextSubkey
  split
  · exact Vector.getElem_set_ne _ _ (by omega)
  · rfl

theorem nextSubkey_last (b : Block) :
    (nextSubkey b)[15] = if b[0].getLsbD 7 = true then (shiftLeftBlock b)[15] ^^^ 0x87
      else (shiftLeftBlock b)[15] := by
  unfold nextSubkey
  split
  · exact Vector.getElem_set_self _
  · rfl

/-! ### The statements -/

/-- Settles O25: the byte form of the shift carries each top bit into the byte before, which is doubling. -/
theorem subkeyShiftDoublesTheNumber : Obligations.SubkeyShiftDoublesTheNumber := by
  refine fun b => ⟨fun i => ?_, ?_, bigEndian_shiftLeftBlock b⟩
  · rw [shiftLeftBlock_getElem b i.val (by omega), shiftCarry, dif_pos (by omega)]
  · rw [shiftLeftBlock_getElem b 15 (by omega), shiftCarry, dif_neg (by omega)]
    exact BitVec.or_zero

/-- Settles O26: both subkeys are `nextSubkey`, of L and of K1. -/
theorem subkeysAreConditionalShifts : Obligations.SubkeysAreConditionalShifts :=
  fun enc => ⟨fun i => ⟨nextSubkey_getElem (enc zeroBlock) i.val i.isLt,
      nextSubkey_getElem (subkey1 enc) i.val i.isLt⟩,
    nextSubkey_last (enc zeroBlock), nextSubkey_last (subkey1 enc)⟩

end Sys2Proof.Machine
end

section
/-! The family of CTR: the bytes of the keystream-generator block A_i (R99), and the transform byte by byte
(R100 to R102). Block i of the payload holds the bytes from 16(i - 1) on, so byte n of the output comes from
byte n mod 16 of block n / 16 + 1, and the short last block needs no case of its own. -/

namespace Sys2Proof.Machine

/-! ### The keystream-generator block -/

/-- Sixteen bytes are the bytes of the block made of them. -/
theorem blockOfBytes_toList (bs : List Byte) (h : bs.length = 16) :
    (blockOfBytes bs).toList = bs :=
  List.ext_getElem (by simp [h]) fun n hn hbs => by
    rw [Vector.getElem_toList, blockOfBytes_getElem, List.getD_eq_getElem _ _ hbs]

theorem keystreamInput_toList (d : Byte) (a c : Word) (i : Nat) :
    (keystreamInput d a c i).toList =
      [0x01, 0x00, 0x00, 0x00, 0x00, d] ++ le32 a ++ le32 c ++ [0x00, BitVec.ofNat 8 i] :=
  blockOfBytes_toList _ rfl

/-- Bytes 12 and 13 are the upper two lanes of the counter. -/
theorem keystreamInput_getElem_counter (d : Byte) (a c : Word) (i : Nat) :
    (keystreamInput d a c i)[12] = lane c 2 ∧ (keystreamInput d a c i)[13] = lane c 3 :=
  ⟨blockOfBytes_getElem _ 12 (by omega), blockOfBytes_getElem _ 13 (by omega)⟩

/-- A 16-bit number leaves the upper two lanes of a word 0. -/
theorem lane_setWidth_eq_zero (f : BitVec 16) (m : Nat) (h : 2 ≤ m) :
    lane (f.setWidth 32) m = 0x00 :=
  BitVec.eq_of_getLsbD_eq fun i hi => by
    rw [lane_getLsbD _ _ _ hi, BitVec.getLsbD_setWidth, BitVec.getLsbD_of_ge f _ (by omega)]
    simp

/-! ### The transform, byte by byte -/

/-- Byte n of the keystream: byte n mod 16 of the encryption of A_i with i = n / 16 + 1 (R100). -/
def keystreamByte (enc : Block → Block) (d : Byte) (a c : Word) (n : Nat) : Byte :=
  (enc (keystreamInput d a c (n / 16 + 1)))[n % 16]

/-- Byte j of block i + 1 of a message. -/
theorem messageBlock_getElem? (m : List Byte) (i j : Nat) (h : j < 16) :
    (messageBlock m (i + 1))[j]? = m[16 * i + j]? := by
  rw [messageBlock, List.getElem?_take_of_lt h, List.getElem?_drop, Nat.add_sub_cancel]

/-- Byte j of the chunk of block i + 1; past the end of a short last block there is none (R101). -/
theorem ctrChunk_getElem? (enc : Block → Block) (d : Byte) (a c : Word) (p : List Byte) (i j : Nat)
    (h : j < 16) :
    (ctrChunk enc d a c p (i + 1))[j]? =
      p[16 * i + j]?.map (· ^^^ keystreamByte enc d a c (16 * i + j)) := by
  have hkey : (enc (keystreamInput d a c (i + 1))).toList[j]? =
      some (keystreamByte enc d a c (16 * i + j)) := by
    simp [keystreamByte, h, show (16 * i + j) / 16 = i by omega, Nat.mod_eq_of_lt h]
  rw [ctrChunk, xorBytes, List.getElem?_zipWith, messageBlock_getElem? p i j h, hkey]
  cases p[16 * i + j]? <;> rfl

/-- Byte n of the first m chunks together: the last of them holds it or the ones before do. -/
theorem chunks_getElem? (enc : Block → Block) (d : Byte) (a c : Word) (p : List Byte) (m n : Nat)
    (hm : n < 16 * m) (hp : n < p.length) :
    ((List.range' 1 m).flatMap (ctrChunk enc d a c p))[n]? =
      p[n]?.map (· ^^^ keystreamByte enc d a c n) := by
  induction m with
  | zero => omega
  | succ m ih =>
    have hlength := chunks_length enc d a c p m
    rw [List.range'_concat, List.flatMap_append]
    by_cases hn : n < 16 * m
    · rw [List.getElem?_append_left (by omega), ih hn]
    · rw [List.getElem?_append_right (by omega), hlength, Nat.min_eq_left (by omega)]
      simp only [List.flatMap_singleton, Nat.one_mul, Nat.add_comm 1 m]
      rw [ctrChunk_getElem? enc d a c p m _ (by omega), Nat.add_sub_cancel' (by omega)]

/-- Byte n of the output is byte n of the payload XOR byte n of the keystream, and where the payload has no
byte the output has none (R101). -/
theorem transform_getElem? (enc : Block → Block) (d : Byte) (a c : Word) (p : List Byte) (n : Nat) :
    (transform enc d a c p)[n]? = p[n]?.map (· ^^^ keystreamByte enc d a c n) := by
  by_cases hp : n < p.length
  · exact chunks_getElem? enc d a c p _ n (by omega) hp
  · rw [List.getElem?_eq_none (by simpa using hp), List.getElem?_eq_none (by omega), Option.map_none]

/-- The keystream does not depend on the payload, so the second pass takes off what the first put on. -/
theorem transform_transform (enc : Block → Block) (d : Byte) (a c : Word) (p : List Byte) :
    transform enc d a c (transform enc d a c p) = p := by
  refine List.ext_getElem? fun n => ?_
  rw [transform_getElem?, transform_getElem?]
  cases p[n]? with
  | none => rfl
  | some x => simp

/-! ### The statements -/

/-- Settles O29: the bytes of the output are those of the payload XOR those of the keystream. -/
theorem transformXorsTheKeystream : Obligations.TransformXorsTheKeystream :=
  fun enc d a c p => ⟨transform_length enc d a c p, fun n h => by
    rw [transform_getElem?, List.getElem?_eq_getElem h, Option.map_some, keystreamByte]⟩

/-- Settles O30: the transform undoes itself for any block encryption, that of a key slot among them. -/
theorem transformIsAnInvolution : Obligations.TransformIsAnInvolution :=
  fun s k => transform_transform (s.enc k)

/-- Settles O28: A_i is the block of its sixteen bytes, those of the counter being its lanes. -/
theorem keystreamBlockLayout : Obligations.KeystreamBlockLayout := by
  refine ⟨fun d a c i _ _ => keystreamInput_toList d a c i, fun d a f i => ?_, by decide⟩
  obtain ⟨hlow, hhigh⟩ := keystreamInput_getElem_counter d a (f.setWidth 32) i
  rw [hlow, hhigh]
  exact ⟨lane_setWidth_eq_zero f 2 (by omega), lane_setWidth_eq_zero f 3 (by omega)⟩

end Sys2Proof.Machine
end

section
/-! The family of the frame builder: the bytes of the header H and of the authentication block B0 (R104,
R105). B0 carries the 16-bit counter as a word, so its counter bytes are `le16` and two zero bytes. -/

namespace Sys2Proof.Machine

theorem counterBlock_toList (tag d : Byte) (a c : Word) (n : Byte) :
    (counterBlock tag d a c n).toList =
      [tag, 0x00, 0x00, 0x00, 0x00, d] ++ le32 a ++ le32 c ++ [0x00, n] :=
  blockOfBytes_toList _ rfl

/-- A 16-bit number read as a word keeps its two bytes in the lanes 0 and 1. -/
theorem le32_setWidth (f : BitVec 16) : le32 (f.setWidth 32) = le16 f ++ [0x00, 0x00] := by
  have hlow : lane (f.setWidth 32) 0 = f.extractLsb' 0 8 :=
    BitVec.extractLsb'_setWidth_of_le (by omega)
  have hnext : lane (f.setWidth 32) 1 = f.extractLsb' 8 8 :=
    BitVec.extractLsb'_setWidth_of_le (by omega)
  rw [le32, hlow, hnext, lane_setWidth_eq_zero f 2 (by omega), lane_setWidth_eq_zero f 3 (by omega)]
  rfl

/-- The bytes of B0 (R105). -/
theorem authBlock_toList (d : Byte) (a : Word) (f : BitVec 16) (m : Nat) :
    (authBlock d a f m).toList =
      [0x49, 0x00, 0x00, 0x00, 0x00, d] ++ le32 a ++ (le16 f ++ [0x00, 0x00]) ++
        [0x00, BitVec.ofNat 8 m] := by
  rw [authBlock, counterBlock_toList, le32_setWidth]

/-- Settles O31: H is its eight bytes as written, and B0 is a counter block whose counter has 16 bits. -/
theorem headerAndAuthBlockLayout : Obligations.HeaderAndAuthBlockLayout :=
  ⟨fun _ _ _ _ => rfl, authBlock_toList⟩

end Sys2Proof.Machine
end

section
/-! The decoder as a whole: it is the left and right inverse of the encoder (O1), and it accepts exactly the
words that match a row of R63's table (O2, O5). -/

namespace Sys2Proof

/-! ### The fields of an encoded command -/

/-- The field that bit i of a word of five fields lies in (R60). -/
theorem wordOfFields_getLsbD (f : CommandFields) (i : Nat) :
    (wordOfFields f).getLsbD i =
      if i < 8 then f.op.getLsbD i else if i < 9 then (BitVec.ofBool f.ksel).getLsbD (i - 8)
      else if i < 16 then f.reservedLow.getLsbD (i - 9) else if i < 24 then f.dir.getLsbD (i - 16)
      else f.reservedHigh.getLsbD (i - 24) := by
  simp only [wordOfFields, BitVec.getLsbD_append, Nat.sub_sub]
  grind

/-- The five fields of a word are read back as they were put in (R60). -/
@[simp] theorem fieldsOfWord_wordOfFields (f : CommandFields) : fieldsOfWord (wordOfFields f) = f := by
  obtain ⟨op, ksel, low, dir, high⟩ := f
  simp only [fieldsOfWord, CommandFields.mk.injEq]
  refine ⟨?op, ?ksel, ?low, ?dir, ?high⟩
  case ksel => rw [wordOfFields_getLsbD]; simp
  all_goals
    refine BitVec.eq_of_getLsbD_eq fun i hi => ?_
    rw [BitVec.getLsbD_extractLsb', wordOfFields_getLsbD]
    grind

/-- The fields of a command name the command: OP its constructor, KSEL and DIR its operands. -/
theorem commandOfOp_fields (i : Instr) :
    commandOfOp i.fields.op (slotOfKsel i.fields.ksel) i.fields.dir = i := by
  cases i with
  | nop | build | fcntInc => rfl
  | keyexp k | encblk k | cmac k | ctr k d => cases k <;> rfl

/-- Two commands are never written as one word. -/
theorem encode_injective : Function.Injective encode := by
  intro i j h
  have hf : i.fields = j.fields := by
    simpa only [encode, fieldsOfWord_wordOfFields] using congrArg fieldsOfWord h
  rw [← commandOfOp_fields i, hf, commandOfOp_fields j]

/-- No command of `Instr` fails a check of R63 or R64. -/
theorem Instr.wellFormed_eq_true (i : Instr) : i.wellFormed = true :=
  match i with
  | .nop => Laws.EncodingRow.nop.2
  | .keyexp k => (Laws.EncodingRow.keyexp k).2
  | .encblk k => (Laws.EncodingRow.encblk k).2
  | .cmac k => (Laws.EncodingRow.cmac k).2
  | .ctr k d => (Laws.EncodingRow.ctr k d).2
  | .build => Laws.EncodingRow.build.2
  | .fcntInc => Laws.EncodingRow.fcntInc.2

theorem Instr.fields_op_le (i : Instr) : i.fields.op.toNat ≤ 6 := by
  cases i <;> exact Nat.le_of_ble_eq_true rfl

theorem Instr.fields_not_hasStrayBit (i : Instr) : ¬ i.fields.HasStrayBit := by
  cases i <;> simp [CommandFields.not_hasStrayBit_iff, Instr.fields]

/-! ### The words the decoder accepts -/

/-- The encoder is inverted by the decoder. -/
theorem decode_encode (i : Instr) : decode (encode i) = .ok i := by
  have hfields : fieldsOfWord (encode i) = i.fields := fieldsOfWord_wordOfFields i.fields
  obtain ⟨j, hj, hword⟩ := decode_of_command (encode i) (hfields ▸ i.fields_op_le)
    (hfields ▸ i.fields_not_hasStrayBit)
  rw [hj, encode_injective hword]

/-- A word is accepted exactly when its opcode is legal and it has no stray bit (R64). -/
theorem exists_decode_eq_ok_iff (w : Word) : (∃ i, decode w = .ok i) ↔
    (fieldsOfWord w).op.toNat ≤ 6 ∧ ¬ (fieldsOfWord w).HasStrayBit := by
  constructor
  · rintro ⟨i, hi⟩
    have hop : (fieldsOfWord w).op.toNat ≤ 6 := by
      by_contra h
      simp [decode_of_op_illegal w (Nat.lt_of_not_le h)] at hi
    refine ⟨hop, fun h => ?_⟩
    simp [decode_of_hasStrayBit w hop h] at hi
  · rintro ⟨hop, h⟩
    obtain ⟨i, hi, -⟩ := decode_of_command w hop h
    exact ⟨i, hi⟩

/-- A word that is accepted is the word of its command (R63). -/
theorem encode_of_decode (w : Word) (i : Instr) (h : decode w = .ok i) : encode i = w := by
  obtain ⟨hop, hstray⟩ := (exists_decode_eq_ok_iff w).1 ⟨i, h⟩
  obtain ⟨j, hj, hword⟩ := decode_of_command w hop hstray
  rw [h] at hj
  rwa [Except.ok.inj hj]

/-! ### The table of R63 -/

/-- A word that matches a row agrees with it in each field, on the field's part of the mask. -/
theorem TableRow.fields_of_covers (r : TableRow) (w : Word) (h : r.covers w = true) :
    (fieldsOfWord w).op &&& (fieldsOfWord r.mask).op = (fieldsOfWord r.bits).op ∧
    ((fieldsOfWord w).ksel && (fieldsOfWord r.mask).ksel) = (fieldsOfWord r.bits).ksel ∧
    (fieldsOfWord w).reservedLow &&& (fieldsOfWord r.mask).reservedLow
      = (fieldsOfWord r.bits).reservedLow ∧
    (fieldsOfWord w).dir &&& (fieldsOfWord r.mask).dir = (fieldsOfWord r.bits).dir ∧
    (fieldsOfWord w).reservedHigh &&& (fieldsOfWord r.mask).reservedHigh
      = (fieldsOfWord r.bits).reservedHigh := by
  have hrow : w &&& r.mask = r.bits := of_decide_eq_true h
  simp only [← hrow, fieldsOfWord, BitVec.extractLsb'_and, BitVec.getLsbD_and, and_self]

/-- What a row says of the fields: its opcode is legal and looked at whole, and each field that must be 0 under
it is 0 in the row and looked at whole (R63). -/
def TableRow.Sound (r : TableRow) : Prop :=
  (fieldsOfWord r.mask).op = .allOnes 8 ∧ (fieldsOfWord r.bits).op.toNat ≤ 6 ∧
  (fieldsOfWord r.mask).reservedLow = .allOnes 7 ∧ (fieldsOfWord r.bits).reservedLow = 0 ∧
  (fieldsOfWord r.mask).reservedHigh = .allOnes 8 ∧ (fieldsOfWord r.bits).reservedHigh = 0 ∧
  ((fieldsOfWord r.bits).op.toNat ∈ [1, 2, 3, 4] ∨
    ((fieldsOfWord r.mask).ksel = true ∧ (fieldsOfWord r.bits).ksel = false)) ∧
  ((fieldsOfWord r.bits).op.toNat = 4 ∨
    ((fieldsOfWord r.mask).dir = .allOnes 8 ∧ (fieldsOfWord r.bits).dir = 0))

theorem commandTable_sound : ∀ r ∈ commandTable, r.Sound := by
  unfold TableRow.Sound
  decide

/-- A word that matches a sound row has the row's opcode. -/
theorem TableRow.op_of_covers (r : TableRow) (w : Word) (hr : r.Sound) (h : r.covers w = true) :
    (fieldsOfWord w).op = (fieldsOfWord r.bits).op := by
  obtain ⟨hop, -⟩ := hr
  obtain ⟨hw, -⟩ := r.fields_of_covers w h
  rwa [hop, BitVec.and_allOnes] at hw

/-- A word that matches a sound row has no stray bit. -/
theorem TableRow.not_hasStrayBit_of_covers (r : TableRow) (w : Word) (hr : r.Sound)
    (h : r.covers w = true) : ¬ (fieldsOfWord w).HasStrayBit := by
  have hop := r.op_of_covers w hr h
  obtain ⟨-, -, hlowMask, hlow, hhighMask, hhigh, hksel, hdir⟩ := hr
  obtain ⟨-, hwksel, hwlow, hwdir, hwhigh⟩ := r.fields_of_covers w h
  rw [CommandFields.not_hasStrayBit_iff, hop]
  refine ⟨?_, ?_, fun hk => ?_, fun hd => ?_⟩
  · rwa [hlowMask, hlow, BitVec.and_allOnes] at hwlow
  · rwa [hhighMask, hhigh, BitVec.and_allOnes] at hwhigh
  · refine hksel.resolve_right fun ⟨hmask, hbits⟩ => ?_
    simp [hk, hmask, hbits] at hwksel
  · refine hdir.resolve_right fun ⟨hmask, hbits⟩ => hd ?_
    rwa [hmask, hbits, BitVec.and_allOnes] at hwdir

/-- The opcodes of the rows are all different. -/
theorem commandTable_ops_pairwise :
    commandTable.Pairwise fun r q => (fieldsOfWord r.bits).op ≠ (fieldsOfWord q.bits).op := by
  decide

/-! ### The statements -/

/-- Settles O1: fields and word determine each other, and no legal word has a bit outside its fields. -/
theorem decodeEncodeAgree : Obligations.DecodeEncodeAgree :=
  ⟨fun i _ => decode_encode i, fun w i h => ⟨i.wellFormed_eq_true, encode_of_decode w i h⟩⟩

/-- Settles O2: a row looks at the whole opcode and at every field its command does not use. -/
theorem tableRowsAreTheCommands : Obligations.TableRowsAreTheCommands := by
  refine ⟨fun w => ⟨?_, ?_⟩, ?_⟩
  · rintro ⟨i, hi⟩
    exact encode_of_decode w i hi ▸ encode_covered i
  · rintro ⟨r, hr, hcovers⟩
    have hsound : r.Sound := commandTable_sound r hr
    obtain ⟨-, hop, -⟩ := commandTable_sound r hr
    refine (exists_decode_eq_ok_iff w).2 ⟨?_, r.not_hasStrayBit_of_covers w hsound hcovers⟩
    rwa [r.op_of_covers w hsound hcovers]
  · refine commandTable_ops_pairwise.imp_of_mem fun hr hq hne w ⟨hwr, hwq⟩ => hne ?_
    rw [← TableRow.op_of_covers _ w (commandTable_sound _ hr) hwr,
      ← TableRow.op_of_covers _ w (commandTable_sound _ hq) hwq]

/-- Settles O5: the decoder computes on each of the nine words. -/
theorem sampleWordsDecode : Obligations.SampleWordsDecode := by
  unfold Obligations.SampleWordsDecode
  decide

end Sys2Proof
end

section
/-! The invariant of the machine, at reset and through every step (O33 to O35), and what no step but the right
one changes: the frame counter, the lock and the keys, the valid bits (O36 to O38). Each follows from the ten
cases of `StepCase`. -/

namespace Sys2Proof.Machine

/-! ### The invariant, by what an event changes -/

theorem slot_congr {s t : State} (h0 : t.slot0 = s.slot0) (h1 : t.slot1 = s.slot1) (k : Slot) :
    t.slot k = s.slot k := by
  cases k
  · exact h0
  · exact h1

/-- The invariant speaks of seven things only: the store, the command in flight, DONE, ERRCODE, LEN, the key
slots and FRAME_LEN. -/
theorem Inv.congr {s t : State} (hs : Inv s) (hmem : t.mem = s.mem) (hinflight : t.inflight = s.inflight)
    (hdone : t.done = s.done) (herr : t.errcode = s.errcode) (hlen : t.len = s.len)
    (hslot0 : t.slot0 = s.slot0) (hslot1 : t.slot1 = s.slot1) (hframe : t.frameLen = s.frameLen) :
    Inv t := by
  have hslot := slot_congr hslot0 hslot1
  exact {
    memWf := hmem ▸ hs.memWf
    memInBuffers := hmem ▸ hs.memInBuffers
    busyNotDone := by rw [hinflight, hdone]; exact hs.busyNotDone
    busyOk := by rw [hinflight, herr]; exact hs.busyOk
    inflightSound := fun i hi => by
      rw [operandErrors_congr i t s hlen fun k => by rw [hslot k]]
      exact hs.inflightSound i (hinflight ▸ hi)
    schedulesCurrent := fun k => by rw [hslot k]; exact hs.schedulesCurrent k
    frameLenRange := hframe ▸ hs.frameLenRange }

/-- Of an idle state the invariant says nothing but what concerns the store, the schedules and FRAME_LEN. -/
theorem Inv.of_idle {s : State} (hidle : s.inflight = none) (hwf : s.mem.wf = true)
    (hbuf : s.mem.inBuffers = true)
    (hsched : ∀ k, (s.slot k).valid = true → (s.slot k).sched = keyExpansion (s.slot k).key)
    (hframe : s.frameLen = 0 ∨ (12 ≤ s.frameLen.toNat ∧ s.frameLen.toNat ≤ 254)) : Inv s where
  memWf := hwf
  memInBuffers := hbuf
  busyNotDone h := by simp [hidle] at h
  busyOk h := by simp [hidle] at h
  inflightSound i h := by simp [hidle] at h
  schedulesCurrent := hsched
  frameLenRange := hframe

/-- After a reset no command is in flight, nothing is stored and no schedule is valid (R131). -/
theorem release_inv (s : State) : Inv s.release :=
  .of_idle rfl rfl rfl (fun k h => by cases k <;> cases h) (.inl rfl)

theorem reset_inv : Inv State.reset :=
  .of_idle rfl rfl rfl (fun k h => by cases k <;> cases h) (.inl rfl)

theorem taken_inv {s : State} (hs : Inv s) : Inv s.taken :=
  hs.congr rfl rfl rfl rfl rfl rfl rfl rfl

/-- Acceptance clears DONE and ERRCODE, and the command's checks have just passed (R68). -/
theorem accept_inv {s : State} (hs : Inv s) (i : Instr) (ho : operandErrors i s = none) :
    Inv (s.accept i) where
  memWf := hs.memWf
  memInBuffers := hs.memInBuffers
  busyNotDone _ := rfl
  busyOk _ := rfl
  inflightSound j hj := by
    obtain rfl : i = j := Option.some.inj hj
    rwa [operandErrors_congr i (s.accept i) s rfl fun k => by rw [accept_slot]]
  schedulesCurrent k := by rw [accept_slot]; exact hs.schedulesCurrent k
  frameLenRange := hs.frameLenRange

/-- A key write that takes effect makes the schedule of its slot invalid (R37). -/
theorem writeKey_inv {s : State} (hs : Inv s) (hidle : s.inflight = none) (k : Slot) (j : Fin 4)
    (v : Word) (strb : Strobe) : Inv (writeKey k j v strb s) := by
  cases hk : s.keylock with
  | true =>
    rw [writeKey_locked k j v strb s hk]
    exact hs.congr rfl rfl rfl rfl rfl rfl rfl rfl
  | false =>
    rw [writeKey_unlocked k j v strb s hk]
    refine .of_idle (by simpa using hidle) (by simpa using hs.memWf) (by simpa using hs.memInBuffers)
      (fun l hl => ?_) (by simpa using hs.frameLenRange)
    by_cases hlk : l = k
    · subst hlk
      simp at hl
    · rw [slot_setSlot_other s k l _ hlk] at hl ⊢
      exact hs.schedulesCurrent l hl

/-- A write of an idle core keeps the invariant: a store to DATA stays in DATA, and nothing else that the
invariant speaks of is written but keys (R46). -/
theorem writeIdle_inv {s t : State} (hs : Inv s) (hidle : s.inflight = none) (l : Location) (v : Word)
    (strb : Strobe) (h : writeIdle l v strb s = .done t) : Inv t := by
  cases l with
  | cmd => cases h
  | key k j => cases h; exact writeKey_inv hs hidle k j v strb
  | len => cases h; exact .of_idle hidle hs.memWf hs.memInBuffers hs.schedulesCurrent hs.frameLenRange
  | data j =>
    cases h
    refine .of_idle hidle (storeLanes_wf _ _ _ _ hs.memWf)
      (storeLanes_inBuffers _ _ _ _ hs.memInBuffers ?_ ?_) hs.schedulesCurrent hs.frameLenRange
    · exact Nat.le_add_right _ _
    · have := j.isLt
      simp only [dataBase]
      omega
  | _ => cases h; exact hs.congr rfl rfl rfl rfl rfl rfl rfl rfl

/-! ### The invariant through a completion -/

/-- A completion that leaves the store, the slots and FRAME_LEN alone keeps the invariant. -/
theorem finish_inv {s t : State} (hs : Inv s) (hmem : t.mem = s.mem) (hslot : ∀ k, t.slot k = s.slot k)
    (hframe : t.frameLen = s.frameLen) : Inv t.finish :=
  .of_idle rfl (by rw [finish_mem, hmem]; exact hs.memWf)
    (by rw [finish_mem, hmem]; exact hs.memInBuffers)
    (fun k => by rw [finish_slot, hslot k]; exact hs.schedulesCurrent k)
    (by rw [finish_frameLen, hframe]; exact hs.frameLenRange)

theorem keyexp_finish_inv {s : State} (hs : Inv s) (k : Slot) : Inv (keyexpResult k s).finish := by
  refine .of_idle rfl (by simpa using hs.memWf) (by simpa using hs.memInBuffers) (fun l hl => ?_)
    (by simpa using hs.frameLenRange)
  rw [finish_slot] at hl ⊢
  by_cases hlk : l = k
  · subst hlk
    rw [keyexpResult_slot_same]
  · rw [keyexpResult_slot_other k l s hlk] at hl ⊢
    exact hs.schedulesCurrent l hl

theorem ctr_length_le {s : State} (hs : Inv s) (k : Slot) (d : Byte) (hi : s.inflight = some (.ctr k d)) :
    s.length ≤ 256 := by
  have h := hs.inflightSound _ hi
  simp only [operandErrors, Option.or_eq_none_iff] at h
  exact (lengthError_eq_none s maxMessage).1 h.1

theorem build_length_le {s : State} (hs : Inv s) (hi : s.inflight = some .build) : s.length ≤ 242 := by
  have h := hs.inflightSound _ hi
  simp only [operandErrors, Option.or_eq_none_iff] at h
  exact (lengthError_eq_none s maxPayload).1 h.1

/-- What is written to OUT stays in OUT when it is no longer than OUT. -/
theorem writeOut_mem_inBuffers {s : State} (hs : Inv s) (bs : List Byte) (h : bs.length ≤ 256) :
    (s.mem.writeBytes outBase bs).inBuffers = true :=
  Memory.writeBytes_inBuffers _ _ _ hs.memInBuffers (by decide) (by simp only [outBase]; omega)

theorem ctr_finish_inv {s : State} (hs : Inv s) (k : Slot) (d : Byte)
    (hi : s.inflight = some (.ctr k d)) : Inv (ctrResult k d s).finish := by
  have hlen := ctr_length_le hs k d hi
  refine .of_idle rfl ?_ ?_ (fun l => ?_) ?_
  · rw [finish_mem, ctrResult_mem]
    exact Memory.writeBytes_wf _ _ _ hs.memWf
  · rw [finish_mem, ctrResult_mem]
    exact writeOut_mem_inBuffers hs _ (by simpa using hlen)
  · rw [finish_slot, ctrResult_slot]
    exact hs.schedulesCurrent l
  · rw [finish_frameLen, ctrResult_frameLen]
    exact hs.frameLenRange

theorem build_finish_inv {s : State} (hs : Inv s) (hi : s.inflight = some .build) :
    Inv (buildResult s).finish := by
  have hlen := build_length_le hs hi
  refine .of_idle rfl ?_ ?_ (fun l => ?_) ?_
  · rw [finish_mem, buildResult_mem]
    exact Memory.writeBytes_wf _ _ _ hs.memWf
  · rw [finish_mem, buildResult_mem]
    refine writeOut_mem_inBuffers hs _ ?_
    rw [frameBytes_length, State.frameInputs, payload_length]
    omega
  · rw [finish_slot, buildResult_slot]
    exact hs.schedulesCurrent l
  · rw [finish_frameLen, buildResult_frameLen, BitVec.toNat_ofNat, Nat.mod_eq_of_lt (by omega)]
    exact .inr ⟨by omega, by omega⟩

/-- The completion of every command keeps the invariant (R69). -/
theorem complete_inv {s : State} (hs : Inv s) (i : Instr) (hi : s.inflight = some i) :
    Inv (resultOf i s).finish := by
  cases i with
  | nop => exact finish_inv hs rfl (nopResult_slot s) rfl
  | keyexp k => exact keyexp_finish_inv hs k
  | encblk k => exact finish_inv hs (encblkResult_mem k s) (encblkResult_slot k s) (encblkResult_frameLen k s)
  | cmac k => exact finish_inv hs (cmacResult_mem k s) (cmacResult_slot k s) (cmacResult_frameLen k s)
  | ctr k d => exact ctr_finish_inv hs k d hi
  | build => exact build_finish_inv hs hi
  | fcntInc => exact finish_inv hs rfl (fcntIncResult_slot s) rfl

/-- Every kind of step keeps the invariant. -/
theorem StepCase.inv {s t : State} (h : StepCase s t) (hs : Inv s) : Inv t := by
  have hs := taken_inv hs
  cases h with
  | idle h => exact h ▸ hs
  | read p d h => exact h ▸ hs.congr rfl rfl rfl rfl rfl rfl rfl rfl
  | hold hp he h => exact h ▸ hs.congr rfl rfl rfl rfl rfl rfl rfl rfl
  | release hp he h => exact h ▸ release_inv s.taken
  | sticky hp v strb h => exact h ▸ hs.congr rfl rfl rfl rfl rfl rfl rfl rfl
  | lost hp i hi h => exact h ▸ hs.congr rfl rfl rfl rfl rfl rfl rfl rfl
  | write hp hi addr v strb he hstrb h => exact writeIdle_inv hs hi _ v strb h
  | reject hp hi c h =>
    exact h ▸ .of_idle hi hs.memWf hs.memInBuffers hs.schedulesCurrent hs.frameLenRange
  | accept hp hi i ho h => exact h ▸ accept_inv hs i ho
  | complete hp i hi h => exact h ▸ complete_inv hs i hi

/-! ### Every step answers -/

theorem exec_next (i : Instr) (s : State) : ∃ t, exec i s = .next t := by
  rw [exec_eq_runCommand]
  exact runCommand_next i (resultOf i) s

theorem engineStep_next (s : State) : ∃ t, engineStep s = .next t := by
  unfold engineStep
  split
  · exact exec_next _ s
  · exact ⟨s, rfl⟩

theorem hostWrite_next (addr : Offset) (v : Word) (strb : Strobe) (s : State) :
    ∃ t, hostWrite addr v strb s = .next t := by
  unfold hostWrite
  split
  · exact ⟨_, rfl⟩
  · exact present_next _ s

theorem liveEvent_next (e : Event) (s : State) : ∃ t, liveEvent e s = .next t := by
  cases e with
  | read addr => exact ⟨_, rfl⟩
  | write addr v strb => exact hostWrite_next addr v strb s
  | engine => exact engineStep_next s
  | presetn level => cases level <;> exact ⟨_, rfl⟩

/-- With or without an event, with PRESETn high or low, a step answers a next state (R119, R120). -/
theorem step_next (s : State) : ∃ t, step s = .next t := by
  rcases he : s.events with _ | ⟨e, rest⟩
  · rw [step_nil s he]
    unfold runUnscheduled
    split
    · exact engineStep_next s
    · exact ⟨s, rfl⟩
  · cases hp : s.presetn with
    | true => rw [step_live s e rest he hp]; exact liveEvent_next e s.taken
    | false => exact ⟨_, step_held s e rest he hp⟩

/-! ### What commands and bus writes leave alone -/

/-- Only FCNT_INC writes FCNT (R111). -/
theorem resultOf_fcnt (i : Instr) (s : State) (h : i ≠ .fcntInc) : (resultOf i s).fcnt = s.fcnt := by
  cases i with
  | fcntInc => exact absurd rfl h
  | _ => simp [resultOf]

/-- No command writes KEYLOCK (R24). -/
@[simp] theorem resultOf_keylock (i : Instr) (s : State) : (resultOf i s).keylock = s.keylock := by
  cases i <;> simp [resultOf]

/-- Only KEYEXP of a slot changes the slot (R26, R36). -/
theorem resultOf_slot (i : Instr) (k : Slot) (s : State) (h : i ≠ .keyexp k) :
    (resultOf i s).slot k = s.slot k := by
  cases i with
  | keyexp j => exact keyexpResult_slot_other j k s fun hk => h (by rw [hk])
  | _ => simp [resultOf]

/-- No command writes a key: KEYEXP reads it (R90). -/
@[simp] theorem resultOf_slot_key (i : Instr) (k : Slot) (s : State) :
    ((resultOf i s).slot k).key = (s.slot k).key := by
  by_cases h : i = .keyexp k
  · rw [h, resultOf, keyexpResult_slot_same]
  · rw [resultOf_slot i k s h]

/-- A bus write of an idle core never writes FCNT (R30). -/
theorem writeIdle_fcnt (l : Location) (v : Word) (strb : Strobe) (s t : State)
    (h : writeIdle l v strb s = .done t) : t.fcnt = s.fcnt := by
  cases l with
  | cmd => cases h
  | key k j => cases h; unfold writeKey; split <;> simp
  | _ => cases h; rfl

/-- A bus write of an idle core to a location other than a key changes no slot (R36). -/
theorem writeIdle_slot (l : Location) (v : Word) (strb : Strobe) (s t : State)
    (h : writeIdle l v strb s = .done t) (hl : ∀ k j, l ≠ .key k j) (k : Slot) : t.slot k = s.slot k := by
  cases l with
  | cmd => cases h
  | key k j => exact absurd rfl (hl k j)
  | _ => cases h; refine slot_congr ?_ ?_ k <;> rfl

/-- A bus write of an idle core with KEYLOCK 1 leaves KEYLOCK and both slots alone (R24, R37). -/
theorem writeIdle_locked (l : Location) (v : Word) (strb : Strobe) (s t : State)
    (h : writeIdle l v strb s = .done t) (hk : s.keylock = true) :
    t.keylock = true ∧ ∀ k, t.slot k = s.slot k := by
  cases l with
  | cmd => cases h
  | key k j =>
    cases h
    rw [writeKey_locked k j v strb s hk]
    exact ⟨hk, lostWrite_slot s⟩
  | ctrl => exact ⟨by cases h; simp [writeCtrl, hk], writeIdle_slot _ v strb s t h (by simp)⟩
  | _ => exact ⟨by cases h; exact hk, writeIdle_slot _ v strb s t h (by simp)⟩

/-- A key write changes a valid bit only by clearing that of its slot, with KEYLOCK 0 (R26, R37). -/
theorem writeKey_valid (l : Slot) (j : Fin 4) (v : Word) (strb : Strobe) (s : State) (k : Slot) :
    ((writeKey l j v strb s).slot k).valid = (s.slot k).valid ∨
      (((writeKey l j v strb s).slot k).valid = false ∧ s.keylock = false ∧ l = k) := by
  cases hk : s.keylock with
  | true => rw [writeKey_locked l j v strb s hk, lostWrite_slot]; exact .inl rfl
  | false =>
    rw [writeKey_unlocked l j v strb s hk]
    by_cases hl : k = l
    · subst hl
      exact .inr ⟨by rw [slot_setSlot_same], rfl, rfl⟩
    · rw [slot_setSlot_other s l k _ hl]
      exact .inl rfl

/-- A bus write of an idle core changes a valid bit only by a key write to its slot with KEYLOCK 0 (R26, R37). -/
theorem writeIdle_valid (l : Location) (v : Word) (strb : Strobe) (s t : State) (k : Slot)
    (h : writeIdle l v strb s = .done t) :
    (t.slot k).valid = (s.slot k).valid ∨
      ((t.slot k).valid = false ∧ s.keylock = false ∧ ∃ j, l = .key k j) := by
  by_cases hl : ∀ k j, l ≠ .key k j
  · exact .inl (congrArg KeySlot.valid (writeIdle_slot l v strb s t h hl k))
  · simp only [not_forall, not_not] at hl
    obtain ⟨m, j, rfl⟩ := hl
    cases h
    rcases writeKey_valid m j v strb s k with heq | ⟨hfalse, hlock, rfl⟩
    · exact .inl heq
    · exact .inr ⟨hfalse, hlock, j, rfl⟩

/-! ### The statements -/

/-- Settles O33: each of the ten cases of a step keeps the invariant. -/
theorem everyStepKeepsTheInvariant : Obligations.EveryStepKeepsTheInvariant :=
  fun s t hs h => (step_case s t h).inv hs

/-- Settles O34: the reset state is idle, with an empty store and no valid schedule. -/
theorem invariantHoldsAtReset : Obligations.InvariantHoldsAtReset := reset_inv

/-- Settles O35: no case of an event has an outcome other than a next state. -/
theorem everyStepHasANextState : Obligations.EveryStepHasANextState := step_next

/-- Settles O36: of the ten cases only a completion of FCNT_INC and a release write FCNT. -/
theorem onlyFcntIncAdvancesTheCounter : Obligations.OnlyFcntIncAdvancesTheCounter := by
  intro s t h
  cases step_case s t h with
  | write hp hi addr v strb he hs h => exact .inl (writeIdle_fcnt _ v strb s.taken t h)
  | release hp he h => exact .inr (.inr ⟨hp, h ▸ rfl, h ▸ rfl⟩)
  | complete hp i hi h =>
    by_cases hinc : i = .fcntInc
    · subst hinc h
      exact .inr (.inl ⟨hp, hi, rfl, rfl, fun hmax => by simp [resultOf, State.taken, hmax]⟩)
    · exact .inl (by rw [h, finish_fcnt, resultOf_fcnt i _ hinc]; rfl)
  | idle h | read _ _ h | hold _ _ h | sticky _ _ _ h | lost _ _ _ h | reject _ _ _ h
  | accept _ _ _ _ h => exact .inl (h ▸ rfl)

/-- Settles O37: of the ten cases only a release and the writes of an idle core to CTRL and to a key touch
KEYLOCK or a key, and those writes find KEYLOCK 1. -/
theorem keylockIsPermanent : Obligations.KeylockIsPermanent := by
  intro s t h hlock
  cases step_case s t h with
  | write hp hi addr v strb he hs h =>
    obtain ⟨hk, hslot⟩ := writeIdle_locked _ v strb s.taken t h hlock
    exact .inl ⟨hk, congrArg KeySlot.key (hslot .slot0), congrArg KeySlot.key (hslot .slot1)⟩
  | release hp he h => exact .inr ⟨hp, h ▸ rfl⟩
  | complete hp i hi h =>
    subst h
    refine .inl ⟨(resultOf_keylock i s.taken).trans hlock, ?_, ?_⟩
    · exact resultOf_slot_key i .slot0 s.taken
    · exact resultOf_slot_key i .slot1 s.taken
  | idle h | read _ _ h | hold _ _ h | sticky _ _ _ h | lost _ _ _ h | reject _ _ _ h
  | accept _ _ _ _ h => exact .inl (h ▸ ⟨hlock, rfl, rfl⟩)

/-- Settles O38: of the ten cases only a completion of KEYEXP, a release and a key write of an idle core touch a
valid bit. -/
theorem onlyKeyexpAndKeyWritesChangeValid : Obligations.OnlyKeyexpAndKeyWritesChangeValid := by
  intro s t k h hne
  rw [← show s.taken.slot k = s.slot k from slot_congr rfl rfl k] at hne
  cases step_case s t h with
  | write hp hi addr v strb he hs h =>
    obtain ⟨rest, he⟩ := he
    rcases writeIdle_valid _ v strb s.taken t k h with heq | ⟨hfalse, hlock, j, hl⟩
    · exact absurd heq hne
    · exact .inr (.inr ⟨hfalse, hi, hlock, j, addr, v, strb, rest, he, hs, hl⟩)
  | release hp he h => exact .inr (.inl ⟨by subst h; cases k <;> rfl, hp, h ▸ rfl⟩)
  | complete hp i hi h =>
    subst h
    rw [finish_slot] at hne ⊢
    by_cases hk : i = .keyexp k
    · subst hk
      exact .inl ⟨by rw [resultOf, keyexpResult_slot_same], hi, rfl⟩
    · exact absurd (congrArg KeySlot.valid (resultOf_slot i k s.taken hk)) hne
  | idle h | read _ _ h | hold _ _ h | sticky _ _ _ h | lost _ _ _ h | reject _ _ _ h
  | accept _ _ _ _ h =>
    refine absurd (congrArg KeySlot.valid (slot_congr ?_ ?_ k)) hne <;> (subst h; rfl)

end Sys2Proof.Machine
end

section
/-! Presentation in R65's order of checks (O4): the decoder's checks on the word read as a number, then the
checks on LEN and on the schedules. -/

namespace Sys2Proof

theorem ofNat_eq_zero_iff_of_lt {w x : Nat} (h : x < 2 ^ w) : BitVec.ofNat w x = 0 ↔ x = 0 := by
  rw [← BitVec.toNat_inj, BitVec.toNat_ofNat, Nat.mod_eq_of_lt h]
  simp

/-- The field of `len` bits from bit `start` on of a number written as a word. -/
theorem extractLsb'_ofNat (n start len : Nat) (h : n < 2 ^ 32) :
    (BitVec.ofNat 32 n).extractLsb' start len = BitVec.ofNat len (n / 2 ^ start % 2 ^ len) := by
  apply BitVec.eq_of_toNat_eq
  rw [BitVec.extractLsb'_toNat, BitVec.toNat_ofNat, BitVec.toNat_ofNat, Nat.mod_mod,
    Nat.mod_eq_of_lt h, Nat.shiftRight_eq_div_pow]

/-- The five fields of a word read as a number (R60). -/
theorem fieldsOfWord_ofNat (n : Nat) (h : n < 2 ^ 32) :
    fieldsOfWord (BitVec.ofNat 32 n) =
      { op := BitVec.ofNat 8 (n % 256), ksel := decide (n / 256 % 2 = 1),
        reservedLow := BitVec.ofNat 7 (n / 512 % 128), dir := BitVec.ofNat 8 (n / 65536 % 256),
        reservedHigh := BitVec.ofNat 8 (n / 16777216) } := by
  have hksel : (BitVec.ofNat 32 n).getLsbD 8 = decide (n / 256 % 2 = 1) := by
    rw [BitVec.getLsbD_ofNat, Nat.testBit_eq_decide_div_mod_eq]
    simp
  have hhigh : n / 16777216 % 256 = n / 16777216 := Nat.mod_eq_of_lt (by omega)
  simp only [fieldsOfWord, extractLsb'_ofNat n _ _ h, hksel, Nat.reducePow, Nat.div_one, hhigh]

/-- R65's checks of the word, on its fields read as numbers. -/
theorem decode_ofNat (n : Nat) (h : n < 2 ^ 32) :
    decode (BitVec.ofNat 32 n) =
      if n % 256 > 6 then .error .illegalOp
      else if n / 512 % 128 ≠ 0 ∨ n / 16777216 ≠ 0 then .error .reservedField
      else if n % 256 ∉ [1, 2, 3, 4] ∧ n / 256 % 2 ≠ 0 then .error .reservedField
      else if n % 256 ≠ 4 ∧ n / 65536 % 256 ≠ 0 then .error .reservedField
      else .ok (commandOfOp (BitVec.ofNat 8 (n % 256)) (slotOfKsel (decide (n / 256 % 2 = 1)))
        (BitVec.ofNat 8 (n / 65536 % 256))) := by
  have hop : (BitVec.ofNat 8 (n % 256)).toNat = n % 256 := by simp
  have hlow : BitVec.ofNat 7 (n / 512 % 128) = 0 ↔ n / 512 % 128 = 0 :=
    ofNat_eq_zero_iff_of_lt (by omega)
  have hhigh : BitVec.ofNat 8 (n / 16777216) = 0 ↔ n / 16777216 = 0 :=
    ofNat_eq_zero_iff_of_lt (by omega)
  have hdir : BitVec.ofNat 8 (n / 65536 % 256) = 0 ↔ n / 65536 % 256 = 0 :=
    ofNat_eq_zero_iff_of_lt (by omega)
  have hksel : n / 256 % 2 = 1 ↔ n / 256 % 2 ≠ 0 := by omega
  simp only [decode, fieldsOfWord_ofNat n h, hop, ← mem_one_to_four_iff, ne_eq, hlow, hhigh, hdir,
    decide_eq_true_eq, hksel]

end Sys2Proof

namespace Sys2Proof.Machine

/-- Presented to an idle core, a command is accepted unless a check of its operands fails (R65, R67, R68). -/
theorem exec_of_idle (i : Instr) (s : State) (h : s.inflight = none) :
    exec i s = .next ((operandErrors i s).elim (s.accept i) s.reject) := by
  rw [exec_eq_runCommand]
  rcases he : operandErrors i s with _ | c
  · exact runCommand_accept i _ s h he
  · exact runCommand_reject i _ s c h he

/-- R65's checks of the operands, by the opcode: LENGTH before NO_SCHEDULE. -/
theorem operandErrors_commandOfOp (op : Nat) (h : op ≤ 6) (k : Slot) (d : Byte) (s : State) :
    operandErrors (commandOfOp (BitVec.ofNat 8 op) k d) s =
      if op ∈ [3, 4] ∧ s.len.toNat > 256 then some .length
      else if op = 5 ∧ s.len.toNat > 242 then some .length
      else if op ∈ [2, 3, 4] ∧ (s.slot k).valid = false then some .noSchedule
      else if op = 5 ∧ (s.slot0.valid = false ∨ s.slot1.valid = false) then some .noSchedule
      else none := by
  obtain rfl | rfl | rfl | rfl | rfl | rfl | rfl :
    op = 0 ∨ op = 1 ∨ op = 2 ∨ op = 3 ∨ op = 4 ∨ op = 5 ∨ op = 6 := by omega
  all_goals
    simp [commandOfOp, operandErrors, State.lengthError, State.scheduleError, State.length,
      maxMessage, maxPayload]
  all_goals grind

/-- The command of an opcode, tested one opcode after the other (R62). -/
theorem commandOfOp_ofNat (op : Nat) (h : op ≤ 6) (k : Slot) (d : Byte) :
    commandOfOp (BitVec.ofNat 8 op) k d =
      if op = 0 then .nop else if op = 1 then .keyexp k else if op = 2 then .encblk k
      else if op = 3 then .cmac k else if op = 4 then .ctr k d
      else if op = 5 then .build else .fcntInc := by
  obtain rfl | rfl | rfl | rfl | rfl | rfl | rfl :
    op = 0 ∨ op = 1 ∨ op = 2 ∨ op = 3 ∨ op = 4 ∨ op = 5 ∨ op = 6 := by omega
  all_goals rfl

/-- A check that the decoder makes first is the first that decides a presentation (R65, R67). -/
theorem present_of_check {w : Word} {p : Prop} [Decidable p] {r : Except DecodeError Instr} {s t : State}
    (e : DecodeError) (h : decode w = if p then .error e else r)
    (hrest : ¬ p → decode w = r → present w s = .next t) :
    present w s = .next (if p then s.reject (errCodeOf e) else t) := by
  split_ifs with hp
  · exact present_of_error w e s (h.trans (if_pos hp))
  · exact hrest hp (h.trans (if_neg hp))

/-- Settles O4: the word's own checks are the decoder's, and the checks on LEN and the schedules are those of the
command it decodes to. -/
theorem presentationFollowsTheCheckOrder : Obligations.PresentationFollowsTheCheckOrder := by
  intro n s hn hi op ksel low dir high k valid rejected command
  have hk : slotOfKsel (decide (ksel = 1)) = k := by
    by_cases h : ksel = 1 <;> simp [slotOfKsel, k, h]
  have hdecode := decode_ofNat n hn
  refine present_of_check .illegalOp hdecode fun hop hdecode => ?_
  refine present_of_check .reservedField hdecode fun _ hdecode => ?_
  refine present_of_check .reservedField hdecode fun _ hdecode => ?_
  refine present_of_check .reservedField hdecode fun _ hdecode => ?_
  have hcommand : commandOfOp (BitVec.ofNat 8 op) k (BitVec.ofNat 8 dir) = command :=
    commandOfOp_ofNat op (Nat.le_of_not_lt hop) k _
  have hoperands := operandErrors_commandOfOp op (Nat.le_of_not_lt hop) k (BitVec.ofNat 8 dir) s
  have hvalid : valid k = (s.slot k).valid := by cases k <;> rfl
  rw [hk, hcommand] at hdecode
  rw [hcommand, ← hvalid] at hoperands
  rw [present_of_ok _ _ s hdecode, exec_of_idle _ s hi, hoperands]
  split_ifs <;> rfl

end Sys2Proof.Machine
end

section
/-! The two events of a command: the step and the word that bring them about (O6, O7), its acceptance and its
rejections (O8, O9), and its completion with its result and nothing else (O10 to O16). -/

namespace Sys2Proof.Machine

/-! ### Presentation and completion -/

/-- In flight, a command completes with its result (R69). -/
theorem exec_of_inflight (i : Instr) (s : State) (h : s.inflight = some i) :
    exec i s = .next (resultOf i s).finish := by
  rw [exec_eq_runCommand, runCommand_complete i _ s h]

theorem exec_accept (i : Instr) (s : State) (hi : s.inflight = none) (ho : operandErrors i s = none) :
    exec i s = .next (s.accept i) := by
  rw [exec_of_idle i s hi, ho, Option.elim_none]

theorem exec_reject (i : Instr) (s : State) (c : ErrCode) (hi : s.inflight = none)
    (ho : operandErrors i s = some c) : exec i s = .next (s.reject c) := by
  rw [exec_of_idle i s hi, ho, Option.elim_some]

/-- A rejection leaves the core idle, so an acceptance is none. -/
theorem accept_ne_reject (s : State) (i : Instr) (c : ErrCode) (hi : s.inflight = none) :
    s.accept i ≠ s.reject c := by
  intro h
  have hinflight : some i = s.inflight := congrArg State.inflight h
  simp [hi] at hinflight

theorem lengthError_of_gt (s : State) (n : Nat) (h : s.len.toNat > n) :
    s.lengthError n = some .length := if_pos h

theorem lengthError_of_le (s : State) (n : Nat) (h : s.len.toNat ≤ n) : s.lengthError n = none :=
  (lengthError_eq_none s n).2 h

theorem scheduleError_of_invalid (s : State) (k : Slot) (h : (s.slot k).valid = false) :
    s.scheduleError k = some .noSchedule := by simp [State.scheduleError, h]

/-- BUILD needs both schedules: without one of them its check fails, whichever it is (R65). -/
theorem both_schedules_error (s : State) (k : Slot) (h : (s.slot k).valid = false) :
    (s.scheduleError .slot0).or (s.scheduleError .slot1) = some .noSchedule := by
  cases k with
  | slot0 => rw [scheduleError_of_invalid s .slot0 h, Option.some_or]
  | slot1 =>
    rw [scheduleError_of_invalid s .slot1 h]
    unfold State.scheduleError
    split <;> rfl

/-! ### The step that presents a word -/

/-- An idle core's strobed write to CMD presents the masked word (R28, R66). -/
theorem step_commandWrite (s : State) (addr : Offset) (v : Word) (strb : Strobe) (rest : List Event)
    (hp : s.presetn = true) (hi : s.inflight = none) (he : s.events = .write addr v strb :: rest)
    (ha : addr.toNat / 4 = 3) (hs : strb ≠ 0) :
    step s = present (commandWord v strb) { s with events := rest } := by
  have hl : locationAt addr = .cmd := locationAt_congr addr cmdOffset ha
  rw [step_live s _ rest he hp, taken_cons s _ rest he]
  simp only [liveEvent, hostWrite]
  rw [busWrite_cmd_idle addr v strb s.taken hl hs ((busy_eq_false _).2 hi)]

/-- The engine's turn of a running core with a command in flight is the command's event (R69). -/
theorem step_engine (s : State) (rest : List Event) (i : Instr) (hp : s.presetn = true)
    (hi : s.inflight = some i) (he : s.events = .engine :: rest) :
    step s = exec i { s with events := rest } := by
  rw [step_live s _ rest he hp, taken_cons s _ rest he]
  simp only [liveEvent, engineStep, show s.taken.inflight = some i from hi]

/-- With no event left the engine has its turn (log entry 3). -/
theorem step_unscheduled (s : State) (i : Instr) (hp : s.presetn = true) (hi : s.inflight = some i)
    (he : s.events = []) : step s = exec i s := by
  rw [step_nil s he]
  simp only [runUnscheduled, hp, if_true, engineStep, hi]

theorem decode_of_decodeTableWord (nbits w : Nat) (i : Instr) (h : decodeTableWord nbits w = some i) :
    decode (BitVec.ofNat 32 (w % 2 ^ nbits)) = .ok i := by
  unfold decodeTableWord at h
  split at h
  · next hj => rw [hj, Option.some.inj h]
  · cases h

/-! ### Results -/

theorem enc_eq_cipher (s : State) (k : Slot) : s.enc k = cipher (s.slot k).sched := by
  funext b
  rw [State.enc]

theorem buildResult_byteAt (s : State) (x : Nat) :
    (buildResult s).byteAt x =
      (s.writeOut (frameBytes (s.enc .slot0) (s.enc .slot1) s.frameInputs)).byteAt x :=
  State.byteAt_congr _ _ x (by rw [buildResult_mem]; rfl) (buildResult_epoch s)

theorem buildResult_finish (s : State) : (buildResult s).finish =
    { s with mem := (buildResult s).mem, frameLen := BitVec.ofNat 9 (s.length + 12),
             mic := micWord (frameTag (s.enc .slot0) (s.enc .slot1) s.frameInputs),
             inflight := none, done := true, errcode := .ok } := by
  unfold State.finish buildResult State.writeOut
  dsimp only

/-! ### The statements -/

/-- Settles O6: a CMD write, the engine's turn, and the end of the events are the three ways to a command. -/
theorem stepRunsTheDecodedCommand : Obligations.StepRunsTheDecodedCommand := by
  refine ⟨step_commandWrite, fun s addr v strb rest i hp hi he ha hs hdecode _ => ?_, step_engine,
    step_unscheduled⟩
  rw [step_commandWrite s addr v strb rest hp hi he ha hs, present_of_ok _ i _ hdecode]

/-- Settles O7: the write that `withFetchWord` places presents the whole word. -/
theorem fetchWordIsRunByTheNextStep : Obligations.FetchWordIsRunByTheNextStep := by
  intro s nbits w i h
  have hstep := step_commandWrite (s.withFetchWord nbits w) cmdOffset
    (BitVec.ofNat 32 (w % 2 ^ nbits)) 0b1111 s.events rfl rfl rfl rfl (by decide)
  rw [hstep, commandWord_full, present_of_ok _ i _ (decode_of_decodeTableWord nbits w i h)]
  rfl

/-- Settles O8: no check of the operands fails. -/
theorem commandWithGoodOperandsIsAccepted : Obligations.CommandWithGoodOperandsIsAccepted := exec_accept

/-- Settles O9: the first check that fails gives the code, and three commands have none. -/
theorem commandWithBadOperandsIsRejected : Obligations.CommandWithBadOperandsIsRejected := by
  intro s k d hi rejected
  refine ⟨fun i h hlen => ?_, fun hlen => ?_, fun hv => ?_, fun i h hlen hv => ?_, fun hlen hv => ?_,
    fun i h c => ?_⟩
  · refine exec_reject i s .length hi ?_
    have herr := lengthError_of_gt s maxMessage hlen
    rcases List.mem_pair.1 h with rfl | rfl <;> rw [operandErrors, herr, Option.some_or]
  · refine exec_reject .build s .length hi ?_
    rw [operandErrors, lengthError_of_gt s maxPayload hlen, Option.some_or]
  · exact exec_reject (.encblk k) s .noSchedule hi (scheduleError_of_invalid s k hv)
  · refine exec_reject i s .noSchedule hi ?_
    have hok := lengthError_of_le s maxMessage hlen
    have herr := scheduleError_of_invalid s k hv
    rcases List.mem_pair.1 h with rfl | rfl <;> rw [operandErrors, hok, herr, Option.none_or]
  · refine exec_reject .build s .noSchedule hi ?_
    rw [operandErrors, lengthError_of_le s maxPayload hlen, both_schedules_error s k hv, Option.none_or]
  · have hok : operandErrors i s = none := by
      simp only [List.mem_cons, List.not_mem_nil, or_false] at h
      rcases h with rfl | rfl | rfl <;> rfl
    rw [exec_accept i s hi hok]
    exact fun h => accept_ne_reject s i c hi (Host.Outcome.next.inj h)

/-- Settles O10: NOP has no result beyond the end of its completion. -/
theorem nopCompletes : Obligations.NopCompletes := exec_of_inflight .nop

/-- Settles O11: the result of KEYEXP is one slot. -/
theorem keyexpCompletes : Obligations.KeyexpCompletes :=
  fun s => ⟨exec_of_inflight (.keyexp .slot0) s, exec_of_inflight (.keyexp .slot1) s⟩

/-- Settles O12: the result of ENCBLK is BLKOUT. -/
theorem encblkCompletes : Obligations.EncblkCompletes := by
  intro s k hi
  rw [exec_of_inflight (.encblk k) s hi, resultOf, encblkResult, State.enc]
  simp only [State.setBlkout, State.finish]

/-- Settles O13: the result of CMAC is BLKOUT. -/
theorem cmacCompletes : Obligations.CmacCompletes := by
  intro s k hi
  rw [exec_of_inflight (.cmac k) s hi, resultOf, cmacResult, enc_eq_cipher]
  simp only [State.setBlkout, State.finish]
  rfl

/-- Settles O14: OUT is written with as many bytes as the payload has, and read back. -/
theorem ctrCompletes : Obligations.CtrCompletes := by
  intro s k d hi r
  have hlen : r.length = s.len.toNat := by simp [r]
  refine ⟨_, exec_of_inflight (.ctr k d) s hi, rfl, fun n hn => ?_, fun a ha => ?_⟩
  · rw [List.getElem?_eq_getElem (hlen.symm ▸ hn)]
    exact congrArg some (writeOut_byteAt_inside s r n (hlen.symm ▸ hn)).symm
  · exact writeOut_byteAt_outside s r a (hlen.symm ▸ ha)

/-- Settles O15: the frame written out is `frameBytes`, which is written to OUT and read back. -/
theorem buildCompletes : Obligations.BuildCompletes := by
  intro s hi n p a f c h b tag frame
  have hb : (authBlock 0x00 s.devaddr s.fcnt (8 + p.length)).toList = b := by
    rw [authBlock_toList, show p.length = n from by simp [p]]
    rfl
  have htag : frameTag (s.enc .slot0) (s.enc .slot1) s.frameInputs = tag :=
    congrArg (fun b => cmacTag (cipher s.slot1.sched) (b ++ h ++ c)) hb
  have hframe : frameBytes (s.enc .slot0) (s.enc .slot1) s.frameInputs = frame :=
    congrArg (fun tag => h ++ c ++ micBytes tag) htag
  have hlen : frame.length = n + 12 := by
    rw [← hframe, frameBytes_length]
    exact congrArg (· + 12) (payload_length s)
  have hout (x : Nat) : (buildResult s).byteAt x = (s.writeOut frame).byteAt x :=
    hframe ▸ buildResult_byteAt s x
  refine ⟨_, exec_of_inflight .build s hi, ?_, fun j hj => ?_, fun x hx => ?_⟩
  · rw [resultOf, buildResult_finish, htag]
    rfl
  · rw [List.getElem?_eq_getElem (hlen.symm ▸ hj)]
    exact congrArg some ((hout _).trans (writeOut_byteAt_inside s frame j (hlen.symm ▸ hj))).symm
  · exact (hout x).trans (writeOut_byteAt_outside s frame x (hlen.symm ▸ hx))

/-- FCNT + 1 modulo 2^16 (R113). -/
theorem fcnt_add_one (f : BitVec 16) : f + 1 = BitVec.ofNat 16 ((f.toNat + 1) % 2 ^ 16) := by
  apply BitVec.eq_of_toNat_eq
  simp

/-- FCNT_WRAP is set when FCNT was 0xFFFF, and else kept (R113). -/
theorem or_decide_eq_ite (w : Bool) (f : BitVec 16) :
    (w || decide (f = 0xFFFF)) = if f.toNat = 0xFFFF then true else w := by
  have h : f = 0xFFFF ↔ f.toNat = 0xFFFF := BitVec.toNat_inj.symm
  simp only [h]
  split <;> simp [*]

/-- Settles O16: the sum is taken modulo 2^16, and the wrap is seen at 0xFFFF. -/
theorem fcntIncCompletes : Obligations.FcntIncCompletes := by
  intro s hi
  rw [exec_of_inflight .fcntInc s hi, ← fcnt_add_one, ← or_decide_eq_ite]
  rfl

end Sys2Proof.Machine
end

section
/-! The command in flight against everything else: its frame depends on its operands alone (O32), it writes only
its own OUT bytes (O39), it completes (O40), and no bus transaction disturbs it (O41). -/

namespace Sys2Proof.Machine

/-! ### What BUILD reads -/

/-- While BUILD is in flight both schedules are valid, so each is the schedule of its key (R26, R65). -/
theorem build_sched {s : State} (hs : Inv s) (hi : s.inflight = some .build) (k : Slot) :
    (s.slot k).sched = keyExpansion (s.slot k).key := by
  have h := hs.inflightSound .build hi
  simp only [operandErrors, Option.or_eq_none_iff, scheduleError_eq_none] at h
  obtain ⟨-, h0, h1⟩ := h
  exact hs.schedulesCurrent k (by cases k; exacts [h0, h1])

theorem enc_congr {s u : State} (k : Slot) (h : (s.slot k).sched = (u.slot k).sched) :
    s.enc k = u.enc k := by
  rw [enc_eq_cipher, enc_eq_cipher, h]

/-- The payload is LEN and DATA[0..LEN) (R108). -/
theorem payload_congr {s u : State} (hlen : s.len = u.len)
    (hdata : ∀ n, n < s.len.toNat → s.dataByte n = u.dataByte n) : s.payload = u.payload := by
  unfold State.payload State.dataBytes State.length
  rw [← hlen]
  exact List.map_congr_left fun n hn => hdata n (List.mem_range.1 hn)

/-- Byte n of OUT after BUILD is byte n of the frame (R108). -/
theorem buildResult_outByte (s : State) (n : Nat) (h : n < s.length + 12) :
    some ((buildResult s).finish.outByte n) =
      (frameBytes (s.enc .slot0) (s.enc .slot1) s.frameInputs)[n]? := by
  have hn : n < (frameBytes (s.enc .slot0) (s.enc .slot1) s.frameInputs).length := by
    rw [frameBytes_length]
    exact (payload_length s).symm ▸ h
  rw [List.getElem?_eq_getElem hn]
  exact congrArg some ((buildResult_byteAt s _).trans (writeOut_byteAt_inside s _ n hn))

/-! ### What a command writes to the buffers -/

theorem byteAt_of_mem {s t : State} (hmem : t.mem = s.mem) (hepoch : t.epoch = s.epoch) (x : Nat) :
    t.byteAt x = s.byteAt x := State.byteAt_congr t s x (by rw [hmem]) hepoch

/-- Outside its bytes of OUT no command changes a buffer byte (R40, R41). -/
theorem resultOf_byteAt (i : Instr) (s : State) (x : Nat)
    (h : x < outBase ∨ outBase + outBytesOf i s ≤ x) : (resultOf i s).byteAt x = s.byteAt x := by
  cases i with
  | nop => exact byteAt_of_mem rfl rfl x
  | keyexp k => exact byteAt_of_mem (keyexpResult_mem k s) (keyexpResult_epoch k s) x
  | encblk k => exact byteAt_of_mem (encblkResult_mem k s) (encblkResult_epoch k s) x
  | cmac k => exact byteAt_of_mem (cmacResult_mem k s) (cmacResult_epoch k s) x
  | ctr k d =>
    refine writeOut_byteAt_outside s _ x ?_
    rwa [transform_length, payload_length]
  | build =>
    refine (buildResult_byteAt s x).trans (writeOut_byteAt_outside s _ x ?_)
    rwa [frameBytes_length, State.frameInputs, payload_length]
  | fcntInc => exact byteAt_of_mem rfl rfl x

/-- An event of a command changes a buffer byte only by its completion, within its bytes of OUT (R41). -/
theorem exec_byteAt (i : Instr) (s t : State) (h : exec i s = .next t) (x : Nat)
    (hx : t.byteAt x ≠ s.byteAt x) :
    s.inflight = some i ∧ outBase ≤ x ∧ x < outBase + outBytesOf i s := by
  rw [exec_eq_runCommand] at h
  rcases runCommand_cases i _ s t h with ⟨-, -, rfl⟩ | ⟨c, -, -, rfl⟩ | ⟨hi, rfl⟩ | ⟨j, -, -, rfl⟩
  · exact absurd rfl hx
  · exact absurd rfl hx
  · by_contra hout
    have hrange : ¬ (outBase ≤ x ∧ x < outBase + outBytesOf i s) := fun c => hout ⟨hi, c⟩
    exact hx (resultOf_byteAt i s x (by omega))
  · exact absurd rfl hx

/-! ### Bus transactions while a command is in flight -/

/-- The two states differ at most in what bus transactions may change while a command is in flight: the events
to come, PRDATA, the draws and the two sticky bits. -/
def SameButBus (s t : State) : Prop :=
  t = { s with events := t.events, prdata := t.prdata, draws := t.draws, wign := t.wign,
               fcntWrap := t.fcntWrap }

theorem SameButBus.trans {s t u : State} (h : SameButBus s t) (h' : SameButBus t u) : SameButBus s u := by
  rw [SameButBus, h] at h'
  exact h'

theorem SameButBus.inflight_eq {s t : State} (h : SameButBus s t) : t.inflight = s.inflight := by
  unfold SameButBus at h
  rw [h]

theorem SameButBus.presetn_eq {s t : State} (h : SameButBus s t) : t.presetn = s.presetn := by
  unfold SameButBus at h
  rw [h]

/-- A command computes with none of what bus transactions may change (R44). -/
theorem SameButBus.result {s t : State} (h : SameButBus s t) (i : Instr) :
    SameButBus (resultOf i s).finish (resultOf i t).finish := by
  have hresult (ev : List Event) (p : Word) (n : Nat) (w f : Bool) :
      SameButBus (resultOf i s).finish (resultOf i
        { s with events := ev, prdata := p, draws := n, wign := w, fcntWrap := f }).finish := by
    cases i with
    | keyexp k => cases k <;> rfl
    | _ => rfl
  rw [h]
  exact hresult _ _ _ _ _

/-- A bus write while a command is in flight is without effect, or clears sticky bits, or sets WIGN (R46). -/
theorem busWrite_of_inflight (addr : Offset) (v : Word) (strb : Strobe) (s : State) (i : Instr)
    (hi : s.inflight = some i) :
    ∃ t, busWrite addr v strb s = .done t ∧ SameButBus s t ∧ t.events = s.events := by
  rcases busWrite_cases addr v strb s with h | h | ⟨-, h⟩ | ⟨hb, -⟩
  · exact ⟨s, h, rfl, rfl⟩
  · exact ⟨_, h, rfl, rfl⟩
  · exact ⟨_, h, rfl, rfl⟩
  · simp [(busy_eq_false s).1 hb] at hi

/-- A bus transaction made while a command is in flight leaves it in flight and its operands alone (R54). -/
theorem step_bus (s : State) (e : Event) (rest : List Event) (i : Instr) (hp : s.presetn = true)
    (hi : s.inflight = some i) (he : s.events = e :: rest) (hengine : e ≠ .engine)
    (hreset : ∀ level, e ≠ .presetn level) :
    ∃ t, step s = .next t ∧ SameButBus s t ∧ t.events = rest := by
  have htaken : s.taken.events = rest := by simp [State.taken, he]
  rw [step_live s e rest he hp]
  cases e with
  | read addr =>
    refine ⟨busRead addr s.taken, rfl, ?_, ?_⟩
    · rw [busRead_frame]; rfl
    · rw [busRead_frame]; exact htaken
  | write addr v strb =>
    obtain ⟨t, ht, hsame, hev⟩ := busWrite_of_inflight addr v strb s.taken i hi
    have hsame : SameButBus s t := SameButBus.trans (t := s.taken) rfl hsame
    exact ⟨t, by simp only [liveEvent, hostWrite, ht], hsame, hev.trans htaken⟩
  | engine => exact absurd rfl hengine
  | presetn level => exact absurd rfl (hreset level)

/-! ### Runs -/

theorem run_succ {s t : State} (k : Nat) (h : step s = .next t) :
    Host.Core.run Sys2Proof.core (k + 1) s = Host.Core.run Sys2Proof.core k t := by
  simp only [Host.Core.run]
  rw [show Sys2Proof.core.step s = .next t from h]

/-- With bus transactions to come and no reset, the command in flight completes within as many steps as there
are events and one more (R69). -/
theorem run_completes (i : Instr) (es : List Event) (s : State) (hp : s.presetn = true)
    (hi : s.inflight = some i) (he : s.events = es) (hreset : noReset es) :
    ∃ n t, n ≤ es.length + 1 ∧ Host.Core.run Sys2Proof.core n s = .next t ∧
      t.inflight = none ∧ t.done = true ∧ t.errcode = .ok := by
  induction es generalizing s with
  | nil =>
    have hstep : step s = .next (resultOf i s).finish :=
      (step_unscheduled s i hp hi he).trans (exec_of_inflight i s hi)
    exact ⟨1, _, le_rfl, run_succ 0 hstep, rfl, rfl, rfl⟩
  | cons e es ih =>
    by_cases hengine : e = .engine
    · subst hengine
      have hstep := (step_engine s es i hp hi he).trans (exec_of_inflight i _ hi)
      exact ⟨1, _, Nat.le_add_left 1 _, run_succ 0 hstep, rfl, rfl, rfl⟩
    · obtain ⟨t, hstep, hsame, hev⟩ := step_bus s e es i hp hi he hengine
        fun level hl => hreset level (hl ▸ List.mem_cons_self)
      obtain ⟨n, u, hn, hrun, hu⟩ := ih t (hsame.presetn_eq.trans hp) (hsame.inflight_eq.trans hi) hev
        fun level hl => hreset level (List.mem_cons_of_mem e hl)
      exact ⟨n + 1, u, Nat.succ_le_succ hn, (run_succ n hstep).trans hrun, hu⟩

/-- After any number of bus transactions the engine's turn completes the command in flight as it would have at
once, but for what the transactions may change (R44, R54). -/
theorem run_bus_engine (i : Instr) (es rest : List Event) (s : State) (hp : s.presetn = true)
    (hi : s.inflight = some i) (he : s.events = es ++ .engine :: rest) (hbus : busOnly es) :
    ∃ t, Host.Core.run Sys2Proof.core (es.length + 1) s = .next t ∧
      SameButBus (resultOf i s).finish t ∧ t.events = rest := by
  obtain ⟨hengine, hreset⟩ := hbus
  induction es generalizing s with
  | nil =>
    have hstep := (step_engine s rest i hp hi he).trans (exec_of_inflight i _ hi)
    have hsame : SameButBus s { s with events := rest } := rfl
    exact ⟨_, run_succ 0 hstep, hsame.result i, by cases i <;> simp [resultOf]⟩
  | cons e es ih =>
    obtain ⟨t, hstep, hsame, hev⟩ := step_bus s e _ i hp hi he
      (fun h => hengine (h ▸ List.mem_cons_self)) fun level h => hreset level (h ▸ List.mem_cons_self)
    obtain ⟨u, hrun, hu, hrest⟩ := ih t (hsame.presetn_eq.trans hp) (hsame.inflight_eq.trans hi) hev
      (fun h => hengine (List.mem_cons_of_mem e h)) fun level h => hreset level (List.mem_cons_of_mem e h)
    exact ⟨u, (run_succ _ hstep).trans hrun, (hsame.result i).trans hu, hrest⟩

/-! ### The statements -/

/-- Settles O32: the frame is a function of the inputs and of the schedules, and these are those of the keys. -/
theorem buildIsDeterministic : Obligations.BuildIsDeterministic := by
  intro s u hs hu hsi hui hlen hdata haddr hfcnt hmhdr hfctrl hkey0 hkey1
  have henc0 : s.enc .slot0 = u.enc .slot0 :=
    enc_congr .slot0 (by rw [build_sched hs hsi, build_sched hu hui, slot_slot0, hkey0, slot_slot0])
  have henc1 : s.enc .slot1 = u.enc .slot1 :=
    enc_congr .slot1 (by rw [build_sched hs hsi, build_sched hu hui, slot_slot1, hkey1, slot_slot1])
  have hinputs : s.frameInputs = u.frameInputs := by
    unfold State.frameInputs
    rw [hmhdr, hfctrl, haddr, hfcnt, payload_congr hlen hdata]
  have hlength : s.length = u.length := congrArg BitVec.toNat hlen
  refine ⟨_, _, exec_of_inflight .build s hsi, exec_of_inflight .build u hui, fun n hn => ?_, ?_, ?_⟩
  · refine Option.some.inj ((buildResult_outByte s n hn).trans ?_)
    rw [henc0, henc1, hinputs, resultOf, buildResult_outByte u n (hlength ▸ hn)]
  · simp only [resultOf, finish_frameLen, buildResult_frameLen, hlength]
  · simp only [resultOf, finish_mic, buildResult_mic, henc0, henc1, hinputs]

/-- Settles O39: the bytes of OUT that a command may write are counted by `outBytesOf`, which is 0 for all but CTR
and BUILD. -/
theorem commandsWriteOnlyTheirOutBytes : Obligations.CommandsWriteOnlyTheirOutBytes := by
  refine fun i s t h => ⟨fun n hn => ?_, fun n _ hne => ?_⟩
  · by_contra hne
    obtain ⟨-, hlo, -⟩ := exec_byteAt i s t h _ hne
    simp only [dataBase, outBase] at hlo
    omega
  · obtain ⟨hi, -, hhi⟩ := exec_byteAt i s t h _ hne
    have hn : n < outBytesOf i s := Nat.lt_of_add_lt_add_left hhi
    refine ⟨hi, ?_⟩
    cases i with
    | ctr k d => exact .inl ⟨k, d, rfl, hn⟩
    | build => exact .inr ⟨rfl, hn⟩
    | _ => exact absurd hn (Nat.not_lt_zero n)

/-- Settles O40: by induction on the events to come. -/
theorem acceptedCommandAlwaysCompletes : Obligations.AcceptedCommandAlwaysCompletes :=
  fun s i hp hi hreset => run_completes i s.events s hp hi rfl hreset

/-- Settles O41: by induction on the bus transactions, each of which keeps the operands of the command. -/
theorem hostCannotDisturbTheCommandInFlight : Obligations.HostCannotDisturbTheCommandInFlight := by
  intro s i es rest hp hi he hbus
  obtain ⟨t, hrun, hsame, hrest⟩ := run_bus_engine i es rest s hp hi he hbus
  exact ⟨t, _, hrun, exec_of_inflight i s hi, hrest ▸ hsame⟩

end Sys2Proof.Machine
end

section
/-! The inverse in the field of R76 (O18), and the tag of a message given as its full blocks and its last part
(O27). -/

namespace Sys2Proof.Machine

/-! ### The field -/

/-- The inverse of R77's affine map. -/
def affineInverse (b : Byte) : Byte :=
  b.rotateLeft 1 ^^^ b.rotateLeft 3 ^^^ b.rotateLeft 6 ^^^ 0x05

theorem affineInverse_affine : ∀ b : Byte, affineInverse (affine b) = b := by decide +kernel

/-- R78's table holds the inverses under the affine map, so they can be read off it. -/
theorem gfInv_eq_affineInverse_sbox (b : Byte) : gfInv b = affineInverse (sbox b) := by
  rw [sbox_eq_affine_gfInv, affineInverse_affine]

/-- One product for each of the 255 nonzero bytes. -/
theorem gfMul_affineInverse_sbox : ∀ b : Byte, b ≠ 0 → gfMul b (affineInverse (sbox b)) = 1 := by
  decide +kernel

/-! ### The message of a list of blocks -/

/-- The message made of full blocks and a last part (R94). -/
def blocksMessage (full : List Block) (last : List Byte) : List Byte :=
  full.flatMap (fun b => b.toList) ++ last

/-- The last of the full blocks can be taken for the beginning of the last part. -/
theorem blocksMessage_concat (full : List Block) (b : Block) (last : List Byte) :
    blocksMessage (full ++ [b]) last = blocksMessage full (b.toList ++ last) := by
  simp [blocksMessage]

theorem flatMap_toList_length (full : List Block) :
    (full.flatMap (fun b => b.toList)).length = 16 * full.length := by
  simp [List.length_flatMap, Nat.mul_comm]

theorem blocksMessage_length (full : List Block) (last : List Byte) :
    (blocksMessage full last).length = 16 * full.length + last.length := by
  rw [blocksMessage, List.length_append, flatMap_toList_length]

/-- The block after the full ones begins the last part (R94). -/
theorem messageBlock_blocksMessage (full : List Block) (last : List Byte) :
    messageBlock (blocksMessage full last) (full.length + 1) = last.take 16 := by
  rw [messageBlock, Nat.add_sub_cancel, blocksMessage, List.drop_left' (flatMap_toList_length full)]

/-- The bytes of a block, made a block again. -/
@[simp] theorem blockOfBytes_of_toList (b : Block) : blockOfBytes b.toList = b := by
  ext i hi
  simp [hi]

/-! ### The tag -/

/-- The chain over the full blocks takes them one after the other, whatever follows (R96). -/
theorem cmacChain_blocksMessage (enc : Block → Block) (full : List Block) (last : List Byte) :
    cmacChain enc (blocksMessage full last) full.length =
      full.foldl (fun x m => enc (xorBlock x m)) zeroBlock := by
  induction full using List.reverseRecOn generalizing last with
  | nil => rfl
  | append_singleton full b ih =>
    have hblock : (b.toList ++ last).take 16 = b.toList := List.take_left' (by simp)
    rw [List.length_append, List.length_singleton, cmacChain, blocksMessage_concat, ih,
      messageBlock_blocksMessage, hblock, blockOfBytes_of_toList, List.foldl_concat]

/-- The last part makes one block more, also when the message is empty (R94). -/
theorem cmacBlockCount_blocksMessage (full : List Block) (last : List Byte) (hlast : last.length ≤ 16)
    (hempty : last = [] → full = []) :
    cmacBlockCount (blocksMessage full last).length = full.length + 1 := by
  rw [blocksMessage_length, cmacBlockCount]
  rcases last with _ | ⟨y, ys⟩
  · rw [hempty rfl]
    rfl
  · rw [List.length_cons] at hlast ⊢
    rw [if_neg (by omega)]
    omega

/-- The message ends in a complete block exactly when its last part is one (R95). -/
theorem complete_blocksMessage_iff (full : List Block) (last : List Byte) (hlast : last.length ≤ 16)
    (hempty : last = [] → full = []) :
    ((blocksMessage full last).length > 0 ∧ (blocksMessage full last).length % 16 = 0) ↔
      last.length = 16 := by
  rw [blocksMessage_length]
  rcases last with _ | ⟨y, ys⟩
  · simp [hempty rfl]
  · rw [List.length_cons] at hlast ⊢
    omega

/-- M_last from the last part: XOR K1 when it is a full block, padded and XOR K2 otherwise (R95). -/
theorem lastBlock_blocksMessage (enc : Block → Block) (full : List Block) (last : List Byte)
    (hlast : last.length ≤ 16) (hempty : last = [] → full = []) :
    lastBlock enc (blocksMessage full last) =
      if last.length = 16 then xorBlock (blockOfBytes last) (subkey1 enc)
      else xorBlock (blockOfBytes (last ++ [0x80] ++ List.replicate (15 - last.length) 0x00))
        (subkey2 enc) := by
  simp only [lastBlock, complete_blocksMessage_iff full last hlast hempty,
    cmacBlockCount_blocksMessage full last hlast hempty, messageBlock_blocksMessage,
    List.take_of_length_le hlast]

/-! ### The statements -/

/-- Settles O18: {02} and {03} bit by bit, the inverses by the table that holds them. -/
theorem fieldMultiplicationAndInverse : Obligations.FieldMultiplicationAndInverse :=
  ⟨fun b => ⟨gfMul_two b, gfMul_three b⟩,
    fun b hb => gfInv_eq_affineInverse_sbox b ▸ gfMul_affineInverse_sbox b hb, by decide, by decide⟩

/-- Settles O27: the chain of the blocks before the last, and the last block by its two cases. -/
theorem cmacChainsTheBlocks : Obligations.CmacChainsTheBlocks := by
  intro enc full last hlast hempty
  rw [← blocksMessage, cmacTag, cmacBlockCount_blocksMessage full last hlast hempty,
    Nat.add_sub_cancel, cmacChain_blocksMessage, lastBlock_blocksMessage enc full last hlast hempty]

end Sys2Proof.Machine
end

section
/-! The register map as the host reads it (O42 to O48): what a read returns, which locations are results of a
command, and what each location holds. -/

namespace Sys2Proof.Machine

/-! ### Bus reads -/

/-- A read of a location that is a result of the command in flight is a draw (R45). -/
theorem busRead_of_draw (addr : Offset) (s : State) (i : Instr) (hi : s.inflight = some i)
    (h : inResults i s (locationAt addr) = true) : busRead addr s = s.drawRead := by
  have hd : s.readIsDraw (locationAt addr) = true := by simp only [State.readIsDraw, hi, h]
  simp only [busRead, hd, if_true]

/-- Any other read returns what the location holds (R45). -/
theorem busRead_of_not_draw (addr : Offset) (s : State)
    (h : ¬ ∃ i, s.inflight = some i ∧ inResults i s (locationAt addr) = true) :
    busRead addr s = { s with prdata := s.readLocation (locationAt addr) } := by
  have hd : s.readIsDraw (locationAt addr) = false := by
    unfold State.readIsDraw
    split
    · next i hi => exact Bool.eq_false_iff.2 fun hr => h ⟨i, hi, hr⟩
    · rfl
  simp only [busRead, hd, Bool.false_eq_true, if_false]

/-- A bus read of a running core takes the event and reads (R45). -/
theorem step_read (s : State) (addr : Offset) (rest : List Event) (hp : s.presetn = true)
    (he : s.events = .read addr :: rest) : step s = .next (busRead addr s.taken) :=
  step_live s _ rest he hp

theorem readLocation_taken (s : State) (l : Location) : s.taken.readLocation l = s.readLocation l := by
  cases l <;> rfl

/-- Neither the keys nor the schedules are at any location (R36, R42, R53). -/
theorem readLocation_of_keys (s : State) (key0 key1 : Block) (sched0 sched1 : Schedule) (l : Location) :
    ({ s with slot0 := { s.slot0 with key := key0, sched := sched0 },
              slot1 := { s.slot1 with key := key1, sched := sched1 } } : State).readLocation l
      = s.readLocation l := by
  cases l <;> rfl

/-- Whether a location is a result depends on the command and on LEN (R70). -/
theorem outBytesOf_congr (i : Instr) {s t : State} (h : s.len = t.len) :
    outBytesOf i s = outBytesOf i t := by
  cases i with
  | ctr k d => exact congrArg BitVec.toNat h
  | build => exact congrArg (fun n => BitVec.toNat n + 12) h
  | _ => rfl

theorem inResults_congr (i : Instr) {s t : State} (h : s.len = t.len) (l : Location) :
    inResults i s l = inResults i t l := by
  cases l with
  | out j => simp only [inResults, outBytesOf_congr i h]
  | _ => rfl

/-- A word of OUT is a result when its first byte is written (R70). -/
theorem inResults_out_iff (i : Instr) (s : State) (j : Fin 64) :
    inResults i s (.out j) = true ↔ 4 * j.val < outBytesOf i s := decide_eq_true_iff

/-- Two states with the same command in flight, the same LEN, the same number of draws and the same locations
answer a read alike. -/
theorem busRead_prdata_congr (addr : Offset) {s t : State} (hi : s.inflight = t.inflight)
    (hlen : s.len = t.len) (hdraws : s.draws = t.draws) (hread : ∀ l, s.readLocation l = t.readLocation l) :
    (busRead addr s).prdata = (busRead addr t).prdata := by
  by_cases hd : ∃ i, t.inflight = some i ∧ inResults i t (locationAt addr) = true
  · obtain ⟨i, ht, hr⟩ := hd
    rw [busRead_of_draw addr t i ht hr,
      busRead_of_draw addr s i (hi.trans ht) ((inResults_congr i hlen _).trans hr)]
    exact congrArg Config.busDraw hdraws
  · have hs : ¬ ∃ i, s.inflight = some i ∧ inResults i s (locationAt addr) = true := by
      simpa only [hi, inResults_congr _ hlen] using hd
    rw [busRead_of_not_draw addr t hd, busRead_of_not_draw addr s hs]
    exact hread _

/-! ### Lanes -/

/-- Lane m of a word made of four lanes. -/
theorem lane_wordOfLanes (b : Fin 4 → Byte) (m : Fin 4) :
    lane (wordOfLanes (b 0) (b 1) (b 2) (b 3)) m.val = b m :=
  match m with
  | 0 => lane_wordOfLanes_zero _ _ _ _
  | 1 => lane_wordOfLanes_one _ _ _ _
  | 2 => lane_wordOfLanes_two _ _ _ _
  | 3 => lane_wordOfLanes_three _ _ _ _

/-- Lane m of word j of a block is its byte 4j + m (R38, R39, R48). -/
theorem lane_blockWord (b : Block) (j m : Fin 4) :
    lane (blockWord b j) m.val = b[4 * j.val + m.val] :=
  lane_wordOfLanes (fun m => b[4 * j.val + m.val]) m

/-- Lane m of a word of a buffer is the byte m places on (R40, R41, R48). -/
theorem lane_bufferWord (s : State) (a : Nat) (m : Fin 4) :
    lane (s.bufferWord a) m.val = s.byteAt (a + m.val) :=
  lane_wordOfLanes (fun m => s.byteAt (a + m.val)) m

/-- Two bytes in the lower lanes are a 16-bit number (R34). -/
theorem wordOfLanes_two_bytes (b0 b1 : Byte) :
    wordOfLanes b0 b1 0 0 = BitVec.ofNat 32 (b0.toNat + 256 * b1.toNat) := by
  refine BitVec.eq_of_getLsbD_eq fun i hi => ?_
  rw [wordOfLanes_getLsbD, BitVec.getLsbD_ofNat, Nat.add_comm,
    Nat.testBit_two_pow_mul_add (i := 8) _ b0.isLt, BitVec.testBit_toNat, BitVec.testBit_toNat]
  grind

/-! ### The bits of STATUS -/

/-- The field of STATUS that each bit belongs to (R25 to R27); the bits not named are 0. -/
theorem statusWord_getLsbD (s : State) (i : Nat) : s.statusWord.getLsbD i =
    if i = 0 then s.busy else if i = 1 then s.done else if i = 2 then s.err
    else if 4 ≤ i ∧ i < 8 then s.errcode.code.getLsbD (i - 4) else if i = 8 then s.slot0.valid
    else if i = 9 then s.slot1.valid else if i = 10 then s.keylock
    else if i = 12 then s.fcntWrap else if i = 13 then s.wign else false := by
  simp only [State.statusWord, BitVec.getLsbD_append, Nat.sub_sub]
  by_cases h : i < 14
  · interval_cases i <;> simp
  · have hn (n : Nat) (hn : n < 14) : i ≠ n ∧ ¬ i - n < 1 := by omega
    simp [hn, show ¬ i < 1 by omega, show ¬ i - 4 < 4 by omega, show ¬ i < 8 by omega]
/-! ### Reserved offsets -/

/-- Past MIC the map is given by ranges of words (R20). -/
theorem locationOfIndex_of_ge (w : Nat) (h : 11 ≤ w) : locationOfIndex w =
    if 0x30 / 4 ≤ w ∧ w < 0x40 / 4 then .key .slot0 (Fin.ofNat 4 w)
    else if 0x40 / 4 ≤ w ∧ w < 0x50 / 4 then .key .slot1 (Fin.ofNat 4 w)
    else if 0x50 / 4 ≤ w ∧ w < 0x60 / 4 then .blkin (Fin.ofNat 4 w)
    else if 0x60 / 4 ≤ w ∧ w < 0x70 / 4 then .blkout (Fin.ofNat 4 w)
    else if 0x100 / 4 ≤ w ∧ w < 0x200 / 4 then .data (Fin.ofNat 64 w)
    else if 0x200 / 4 ≤ w ∧ w < 0x300 / 4 then .out (Fin.ofNat 64 w)
    else .reserved := by
  obtain ⟨n, rfl⟩ := Nat.exists_eq_add_of_le' h
  rfl

/-- The offset 0x02C, those from 0x070 to 0x0FF and those from 0x300 on are in none of the ranges (R21). -/
theorem locationAt_reserved (addr : Offset) (h : addr.toNat / 4 * 4 = 0x02C ∨
    (0x070 ≤ addr.toNat ∧ addr.toNat < 0x100) ∨ 0x300 ≤ addr.toNat) : locationAt addr = .reserved := by
  rw [locationAt, locationOfIndex_of_ge _ (by omega)]
  iterate 6 rw [if_neg (by omega)]

/-! ### The statements -/

/-- Settles O42: a read depends on the command in flight, LEN, the draws and the locations, and no location holds
a key. -/
theorem readsRevealNoKey : Obligations.ReadsRevealNoKey := by
  refine fun s key0 key1 sched0 sched1 addr => ⟨?_, fun hlo hhi => ?_⟩
  · exact busRead_prdata_congr addr rfl rfl rfl (readLocation_of_keys s key0 key1 sched0 sched1)
  · obtain ⟨k, j, hl⟩ := locationAt_key_of_range addr hlo hhi
    rw [busRead_key addr s k j hl]

/-- Settles O43: a read is a draw or the location, and STATUS is a result of no command. -/
theorem busReadReturnsTheLocation : Obligations.BusReadReturnsTheLocation := by
  intro s addr rest hp he l draw
  have hresult (i : Instr) : inResults i s.taken l = inResults i s l := inResults_congr i rfl l
  have hstep := step_read s addr rest hp he
  have hlocation (h : ¬ draw) : step s = .next { s with events := rest, prdata := s.readLocation l } := by
    rw [hstep, busRead_of_not_draw addr s.taken fun ⟨i, hi, hr⟩ => h ⟨i, hi, (hresult i).symm.trans hr⟩,
      readLocation_taken, ← taken_cons s _ rest he]
  refine ⟨fun ⟨i, hi, hr⟩ => ?_, hlocation, fun hl => ?_⟩
  · rw [hstep, busRead_of_draw addr s.taken i hi ((hresult i).trans hr), ← taken_cons s _ rest he]
    rfl
  · have hstatus : s.readLocation l = s.statusWord := by rw [hl]; rfl
    rw [← hstatus]
    exact hlocation fun ⟨i, _, hr⟩ => by rw [hl] at hr; cases hr

/-- Settles O44: command by command, over the locations. -/
theorem resultLocationsOfEachCommand : Obligations.ResultLocationsOfEachCommand := by
  intro s k d l
  simp only [← Bool.not_eq_true]
  cases l with
  | out j => simp [inResults_out_iff, outBytesOf, State.length]
  | _ => simp [inResults]

/-- Settles O45: the offset gives the location, and the location its field. -/
theorem registersReadAtTheirOffsets : Obligations.RegistersReadAtTheirOffsets := by
  intro s at_
  have hkeylock : (BitVec.ofBool s.keylock).setWidth 32 = if s.keylock = true then 1 else 0 := by
    cases s.keylock <;> rfl
  refine ⟨rfl, hkeylock, rfl, rfl, (BitVec.ofNat_toNat _ _).symm, (BitVec.ofNat_toNat _ _).symm, rfl,
    (BitVec.ofNat_toNat _ _).symm, rfl, wordOfLanes_two_bytes s.mhdr s.fctrl, rfl, fun j => ?_⟩
  have haddr : (BitVec.ofNat 12 (0x030 + 4 * j.val)).toNat = 0x030 + 4 * j.val :=
    (BitVec.toNat_ofNat _ _).trans (Nat.mod_eq_of_lt (by omega))
  obtain ⟨k, l, hl⟩ := locationAt_key_of_range (BitVec.ofNat 12 (0x030 + 4 * j.val)) (by omega) (by omega)
  simp only [at_, hl]
  rfl

/-- Settles O46: lane m of a word is byte m of its four. -/
theorem buffersReadInLittleEndianLanes : Obligations.BuffersReadInLittleEndianLanes := by
  intro s m at_
  refine ⟨fun j => ⟨?_, ?_⟩, fun j => ⟨?_, ?_⟩⟩
  · simp only [at_, locationAt_blkin]
    exact lane_blockWord s.blkin j m
  · simp only [at_, locationAt_blkout]
    exact lane_blockWord s.blkout j m
  · simp only [at_, locationAt_data]
    exact (lane_bufferWord s _ m).trans (congrArg s.byteAt (Nat.add_assoc _ _ _))
  · simp only [at_, locationAt_out]
    exact (lane_bufferWord s _ m).trans (congrArg s.byteAt (Nat.add_assoc _ _ _))

/-- Settles O47: bit by bit, ERRCODE and the upper bits as fields. -/
theorem statusWordBits : Obligations.StatusWordBits := by
  intro s
  refine ⟨?_, ?_, ?_, ?_, ?_, ?_, ?_, ?_, ?_, ?_, ?_, ?_⟩
  case refine_5 =>
    have hcode : s.statusWord.extractLsb' 4 4 = s.errcode.code := by
      refine BitVec.eq_of_getLsbD_eq fun i hi => ?_
      rw [BitVec.getLsbD_extractLsb', statusWord_getLsbD]
      grind
    rw [hcode]
    cases s.errcode <;> rfl
  case refine_12 =>
    refine BitVec.eq_of_getLsbD_eq fun i hi => ?_
    rw [BitVec.getLsbD_extractLsb', statusWord_getLsbD]
    grind
  all_goals
    rw [statusWord_getLsbD]
    simp [State.busy, State.err]

/-- Settles O48: a reserved location reads 0 and ignores writes. -/
theorem reservedOffsetsAreInert : Obligations.ReservedOffsetsAreInert := by
  intro s addr h
  have hl := locationAt_reserved addr h
  refine ⟨?_, fun v strb => busWrite_ignored addr v strb s (by rw [hl]; rfl)⟩
  rw [busRead_of_not_result addr s fun i => by rw [hl]; rfl, hl]
  rfl

end Sys2Proof.Machine
end

section
/-! Bus writes (O50 to O52, O55 to O57): the sticky bits, writes lost while busy, and the writes of an idle core to
CTRL, to the operand registers and to DATA. A write with no strobe merges no lane, so it needs no case of its own
once it is known to leave the register as it was. -/

namespace Sys2Proof.Machine

/-! ### Steps and locations -/

/-- A bus write of a running core that presents nothing is its new state (R46). -/
theorem step_write_done (s t : State) (addr : Offset) (v : Word) (strb : Strobe) (rest : List Event)
    (hp : s.presetn = true) (he : s.events = .write addr v strb :: rest)
    (h : busWrite addr v strb s.taken = .done t) : step s = .next t := by
  rw [step_live s _ rest he hp]
  simp only [liveEvent, hostWrite, h]

/-- The offsets 0x050 to 0x05F are those of BLKIN (R38). -/
theorem locationAt_blkin_of_range (addr : Offset) (lo : 0x050 ≤ addr.toNat)
    (hi : addr.toNat < 0x060) : ∃ j, locationAt addr = .blkin j := by
  obtain ⟨j, hj⟩ := locationAt_of_range addr 0x050 4 rfl lo hi
  exact ⟨j, hj.trans (locationAt_blkin j)⟩

/-- The offsets 0x100 to 0x1FF are those of DATA (R40). -/
theorem locationAt_data_of_range (addr : Offset) (lo : 0x100 ≤ addr.toNat)
    (hi : addr.toNat < 0x200) : ∃ j, locationAt addr = .data j := by
  obtain ⟨j, hj⟩ := locationAt_of_range addr 0x100 64 rfl lo hi
  exact ⟨j, hj.trans (locationAt_data j)⟩

/-- The locations whose strobed write has an effect on an idle core only (R46). -/
def Location.writable (l : Location) : Prop := l ≠ .status ∧ l.ignoresWrites = false

/-- CTRL, CMD, LEN, DEVADDR, CTR_FCNT and FHDR, the single-word writable registers but STATUS (R20, R22). -/
theorem writable_of_word (addr : Offset)
    (h : addr.toNat / 4 * 4 ∈ [0x004, 0x00C, 0x010, 0x018, 0x020, 0x024]) :
    (locationAt addr).writable := by
  have hw : addr.toNat / 4 ∈ [1, 3, 4, 6, 8, 9] := by
    simp only [List.mem_cons, List.not_mem_nil, or_false] at h ⊢
    omega
  have hall : ∀ w ∈ [1, 3, 4, 6, 8, 9], (locationOfIndex w).writable := by
    unfold Location.writable
    decide
  exact hall _ hw

/-- The key registers, BLKIN and DATA are writable (R36, R38, R40). -/
theorem writable_of_range (addr : Offset) (h : (0x030 ≤ addr.toNat ∧ addr.toNat < 0x060) ∨
    (0x100 ≤ addr.toNat ∧ addr.toNat < 0x200)) : (locationAt addr).writable := by
  rcases h with ⟨lo, hi⟩ | ⟨lo, hi⟩
  · by_cases hkey : addr.toNat < 0x050
    · obtain ⟨k, j, hj⟩ := locationAt_key_of_range addr lo hkey
      rw [hj]
      exact ⟨by simp, rfl⟩
    · obtain ⟨j, hj⟩ := locationAt_blkin_of_range addr (Nat.le_of_not_lt hkey) hi
      rw [hj]
      exact ⟨by simp, rfl⟩
  · obtain ⟨j, hj⟩ := locationAt_data_of_range addr lo hi
    rw [hj]
    exact ⟨by simp, rfl⟩

/-! ### What a write merges -/

@[simp] theorem clearSticky_unstrobed (s : State) (v : Word) : s.clearSticky v 0#4 = s := by
  simp [State.clearSticky]

@[simp] theorem mergeLanes_unstrobed (old v : Word) : mergeLanes old v 0#4 = old := by
  simp [mergeLanes]

@[simp] theorem blockWithWord_unstrobed (b : Block) (j : Fin 4) (v : Word) :
    blockWithWord b j v 0#4 = b := by
  ext i hi
  simp [blockWithWord_getElem]

@[simp] theorem storeLanes_unstrobed (m : Memory) (a : Nat) (v : Word) : storeLanes m a v 0#4 = m := by
  simp [storeLanes]

/-- The locations whose write merges the strobed lanes into what they hold: the writable ones but CMD, which
presents a word, and the keys, whose write also clears the valid bit (R24, R29 to R40). -/
def Location.mergesLanes : Location → Bool
  | .ctrl | .len | .devaddr | .ctrFcnt | .fhdr | .blkin _ | .data _ => true
  | _ => false

theorem writable_of_mergesLanes (l : Location) (h : l.mergesLanes = true) : l.writable := by
  cases l with
  | ctrl | len | devaddr | ctrFcnt | fhdr | blkin j | data j => exact ⟨by simp, rfl⟩
  | _ => cases h

/-- With no strobe nothing is merged (R46). -/
theorem writeIdle_unstrobed (l : Location) (v : Word) (s : State) (h : l.mergesLanes = true) :
    writeIdle l v 0 s = .done s := by
  cases l with
  | ctrl => simp [writeIdle, writeCtrl]
  | len => simp [writeIdle, writeLen]
  | fhdr => simp [writeIdle, writeFhdr]
  | devaddr | ctrFcnt | blkin j | data j => simp [writeIdle]
  | _ => cases h

/-- An idle core's write that merges lanes, with or without a strobe (R46). -/
theorem busWrite_merge (addr : Offset) (l : Location) (v : Word) (strb : Strobe) (s : State)
    (hl : locationAt addr = l) (h : l.mergesLanes = true) (hb : s.busy = false) :
    busWrite addr v strb s = writeIdle l v strb s := by
  subst hl
  obtain ⟨hstatus, hignores⟩ := writable_of_mergesLanes _ h
  by_cases hs : strb = 0
  · rw [hs, busWrite_unstrobed, writeIdle_unstrobed _ v s h]
  · exact busWrite_idle addr v strb s hs hstatus hignores hb

/-- A bit that a 1 clears is kept or 0. -/
theorem and_not_and_eq_ite (x a b : Bool) :
    (x && !(a && b)) = if a = true ∧ b = true then false else x := by
  cases a <;> cases b <;> simp

/-- A bit that a 1 sets is kept or 1. -/
theorem or_and_eq_ite (x a b : Bool) : (x || (a && b)) = if a = true ∧ b = true then true else x := by
  cases a <;> cases b <;> simp

theorem clearSticky_eq (s : State) (v : Word) (strb : Strobe) :
    s.clearSticky v strb =
      { s with fcntWrap := if strb.getLsbD 1 = true ∧ v.getLsbD 12 = true then false else s.fcntWrap,
               wign := if strb.getLsbD 1 = true ∧ v.getLsbD 13 = true then false else s.wign } := by
  rw [State.clearSticky, and_not_and_eq_ite, and_not_and_eq_ite]

/-- A write to STATUS, with or without a strobe (R27, R46). -/
theorem busWrite_status_any (addr : Offset) (v : Word) (strb : Strobe) (s : State)
    (hl : locationAt addr = .status) : busWrite addr v strb s = .done (s.clearSticky v strb) := by
  by_cases hs : strb = 0
  · rw [hs, busWrite_unstrobed]
    exact congrArg WriteEffect.done (clearSticky_unstrobed s v).symm
  · exact busWrite_status addr v strb s hs hl

/-! ### LEN and DATA -/

/-- Bits 7:0 of LEN are lane 0 of the merged word (R29). -/
theorem writeLen_low (old : BitVec 9) (v : Word) (strb : Strobe) :
    ((mergeLanes (old.setWidth 32) v strb).setWidth 9).setWidth 8 =
      if strb.getLsbD 0 = true then lane v 0 else old.setWidth 8 := by
  have hzero (w : Word) : lane w 0 = w.setWidth 8 := rfl
  rw [BitVec.setWidth_setWidth_of_le _ (by omega), ← hzero, lane_mergeLanes _ _ _ 0 (by omega),
    hzero (old.setWidth 32), BitVec.setWidth_setWidth_of_le _ (by omega)]

/-- Bit 8 of LEN is bit 0 of lane 1 of the merged word (R29). -/
theorem writeLen_high (old : BitVec 9) (v : Word) (strb : Strobe) :
    ((mergeLanes (old.setWidth 32) v strb).setWidth 9).getLsbD 8 =
      if strb.getLsbD 1 = true then v.getLsbD 8 else old.getLsbD 8 := by
  have hbit (w : Word) : (lane w 1).getLsbD 0 = w.getLsbD 8 := lane_getLsbD w 1 0 (by omega)
  rw [BitVec.getLsbD_setWidth, ← hbit, lane_mergeLanes _ _ _ 1 (by omega), apply_ite (BitVec.getLsbD · 0),
    hbit, hbit, BitVec.getLsbD_setWidth]
  simp only [Nat.reduceLT, decide_true, Bool.true_and]

/-- A strobed store to word j of DATA, byte by byte (R40, R46). -/
theorem byteAt_storeLanes_data (s : State) (j : Fin 64) (v : Word) (strb : Strobe) (a : Nat) :
    State.byteAt { s with mem := storeLanes s.mem (0x100 + 4 * j.val) v strb } a =
      if (a - 0x100) / 4 = j.val ∧ 0x100 ≤ a ∧ strb.getLsbD (a % 4) = true then lane v (a % 4)
      else s.byteAt a := by
  have hread := read_storeLanes s.mem (0x100 + 4 * j.val) a v strb
  have hlane (lo : 0x100 + 4 * j.val ≤ a) (hi : a < 0x100 + 4 * j.val + 4) :
      a - (0x100 + 4 * j.val) = a % 4 := by omega
  by_cases h : (a - 0x100) / 4 = j.val ∧ 0x100 ≤ a ∧ strb.getLsbD (a % 4) = true
  · have ⟨hj, hbase, hs⟩ := h
    have lo : 0x100 + 4 * j.val ≤ a := by omega
    have hi : a < 0x100 + 4 * j.val + 4 := by omega
    rw [hlane lo hi, if_pos ⟨lo, hi, hs⟩] at hread
    rw [if_pos h]
    exact State.byteAt_of_read _ a _ hread
  · rw [if_neg fun ⟨lo, hi, hs⟩ => h ⟨by omega, by omega, hlane lo hi ▸ hs⟩] at hread
    rw [if_neg h]
    exact State.byteAt_congr _ s a hread rfl

/-! ### The statements -/

/-- Settles O50: the sticky bits are all a write to STATUS can change, and it only clears them. -/
theorem stickyBitsClearByWritingOne : Obligations.StickyBitsClearByWritingOne := by
  intro s v strb rest hp he
  rw [step_write_done s _ 0x008 v strb rest hp he (busWrite_status_any 0x008 v strb s.taken rfl),
    clearSticky_eq, ← taken_cons s _ rest he]

/-- Settles O51: a busy core loses a strobed write to every writable location but STATUS. -/
theorem writesWhileBusyAreLost : Obligations.WritesWhileBusyAreLost := by
  intro s addr v strb rest i hp hi he hs haddr
  obtain ⟨hstatus, hignores⟩ : (locationAt addr).writable :=
    haddr.elim (writable_of_word addr) (writable_of_range addr)
  have hb : s.taken.busy = true := (busy_eq_true _).2 ⟨i, hi⟩
  rw [step_write_done s _ addr v strb rest hp he
    (busWrite_busy addr v strb s.taken hs hstatus hignores hb), ← taken_cons s _ rest he]
  rfl

/-- Settles O52: the strobes come first, and the address enters through its location. -/
theorem strobesAndAlignment : Obligations.StrobesAndAlignment := by
  intro s addr other v strb
  refine ⟨busWrite_unstrobed addr v s, fun h => ?_⟩
  have hl : locationAt addr = locationAt other := locationAt_congr addr other h
  exact ⟨by simp only [busRead, hl], by simp only [busWrite, hl]⟩

/-- Settles O55: KEYLOCK is kept or set. -/
theorem ctrlWriteOnlySetsKeylock : Obligations.CtrlWriteOnlySetsKeylock := by
  intro s addr v strb haddr hb
  have hl : locationAt addr = .ctrl := locationAt_congr addr 0x004 haddr
  rw [busWrite_merge addr .ctrl v strb s hl rfl hb, writeIdle, writeCtrl, or_and_eq_ite]

/-- Settles O56: register by register, with the lanes of the merged word. -/
theorem operandWritesMergeLanes : Obligations.OperandWritesMergeLanes := by
  intro s v strb hb
  refine ⟨⟨_, busWrite_merge 0x010 .len v strb s rfl rfl hb, ?_, ?_⟩,
    ⟨_, busWrite_merge 0x018 .devaddr v strb s rfl rfl hb, fun m => ?_⟩,
    ⟨_, busWrite_merge 0x020 .ctrFcnt v strb s rfl rfl hb, fun m => ?_⟩,
    busWrite_merge 0x024 .fhdr v strb s rfl rfl hb,
    fun j => ⟨_, busWrite_merge _ (.blkin j) v strb s (locationAt_blkin j) rfl hb, fun i => ?_⟩⟩
  · exact writeLen_low s.len v strb
  · exact writeLen_high s.len v strb
  · exact lane_mergeLanes s.devaddr v strb m.val m.isLt
  · exact lane_mergeLanes s.ctrFcnt v strb m.val m.isLt
  · exact blockWithWord_getElem s.blkin j v strb i.val i.isLt

/-- Settles O57: word j of DATA is stored by its strobed lanes. -/
theorem dataWriteStoresTheStrobedBytes : Obligations.DataWriteStoresTheStrobedBytes := by
  intro s v strb j hb
  exact ⟨_, busWrite_merge _ (.data j) v strb s (locationAt_data j) rfl hb,
    byteAt_storeLanes_data s j v strb⟩

end Sys2Proof.Machine
end

section
/-! The reset state and the release of PRESETn (O58, O59), and the counts of block encryptions (O60). -/

namespace Sys2Proof.Machine

/-! ### Reset -/

/-- After a release no buffer byte is listed, so each reads as the value that the new reset left there (R40, R41,
R131). -/
theorem release_byteAt (s : State) (x : Nat) : s.release.byteAt x = unwrittenByte (s.epoch + 1) x := rfl

theorem release_dataByte (s : State) (n : Nat) (h : n < 256) :
    s.release.dataByte n = Config.dataInit (s.epoch + 1) n := by
  rw [State.dataByte, release_byteAt, unwrittenByte, if_pos (by simp only [dataBase, outBase]; omega),
    Nat.add_sub_cancel_left]

theorem release_outByte (s : State) (n : Nat) :
    s.release.outByte n = Config.outInit (s.epoch + 1) n := by
  rw [State.outByte, release_byteAt, unwrittenByte, if_neg (by omega), Nat.add_sub_cancel_left]

/-! ### Work -/

/-- A message has at least one block (R94). -/
theorem cmacBlockCount_eq_max (len : Nat) : cmacBlockCount len = max 1 ((len + 15) / 16) := by
  unfold cmacBlockCount
  split <;> omega

/-! ### The statements -/

/-- Settles O58: field by field. -/
theorem resetStateValues : Obligations.ResetStateValues := by
  refine ⟨rfl, rfl, rfl, rfl, rfl, rfl, rfl, rfl, rfl, rfl, rfl, rfl, rfl, rfl, fun k => ?_, rfl, rfl,
    by decide, rfl, by decide⟩
  cases k <;> exact ⟨rfl, rfl⟩

/-- Settles O59: held in reset, the core takes nothing but its release. -/
theorem resetReleaseGivesTheResetState : Obligations.ResetReleaseGivesTheResetState := by
  intro s e rest hp he
  have hstep := step_held s e rest he hp
  have htaken := taken_cons s e rest he
  refine ⟨fun h => ?_, fun addr v strb h => ?_, fun h => ?_, fun h t ht n hn => ?_⟩ <;> subst h
  · rw [hstep, htaken]; rfl
  · rw [hstep, htaken]; rfl
  · exact ⟨KeySlot.reset.sched, KeySlot.reset.sched, by rw [hstep, ← htaken]; rfl⟩
  · obtain rfl : s.taken.release = t := Host.Outcome.next.inj (hstep.symm.trans ht)
    exact ⟨release_dataByte s.taken n hn, release_outByte s.taken n⟩

/-- Settles O60: the counts are read off the blocks of a transform and of a message. -/
theorem workCountsOfTheCommands : Obligations.WorkCountsOfTheCommands := by
  intro k d len
  simp only [commandWork, ctrWork, cmacWork, ctrBlockIndices_length, cmacBlockCount_eq_max, true_and,
    and_true]
  omega

end Sys2Proof.Machine
end
